-- ==== Sys2Proof/Word.lean ====
section
/-! DEFINITION. The widths and the few index types the spec names (spec/00_scope.md R7, R9 to R11, R16). -/

namespace Sys2Proof

/-- A byte of the host register space (20_memory.md R64). -/
abbrev Byte := BitVec 8

/-- A 16-bit quantity: count, THRESH, BASELINE, PWM_PERIOD, PWM_DUTY (00_scope.md R9, R11). -/
abbrev Half := BitVec 16

/-- A stimulus word (30_encoding.md R80). -/
abbrev StimWord := BitVec 32

/-- A host register address (30_encoding.md R82). -/
abbrev HostAddr := BitVec 4

/-- NUM_CHANNELS (00_scope.md R7). -/
abbrev numChannels : Nat := 7

/-- A capacitive channel, the ordinals 0 to 6 (00_scope.md R7). -/
abbrev Channel := Fin numChannels

end Sys2Proof
end

