-- ==== Sys2Proof/Config.lean ====
section
/-! DEFINITION. The implementation parameters (spec/00_scope.md section 3, spec/92_eei_decisions.md "Open parameters").
A state carries its configuration, so that a statement over every state is one over every configuration (00_scope.md R12);
the constants without a body stand for the OPEN parameters of the machine that State.reset describes (log entry 2). -/

namespace Sys2Proof

/-- One entry of the Tone Table: period and duty, with no relation imposed between them (00_scope.md R12). -/
structure ToneParameters where
  period : Half
  duty   : Half
  deriving DecidableEq, Repr, Inhabited

/-- The Tone Table ROM: 7 entries indexed by channel (10_state.md R39). -/
abbrev ToneTable := Vector ToneParameters numChannels

/-- The parameters fixed for one machine. -/
structure Config where
  /-- CH1_QUIRK, OPEN (00_scope.md R13). -/
  ch1Quirk : Bool
  /-- CAL_NUM, default 1 (00_scope.md R14). -/
  calNum : Nat
  /-- CAL_DEN, default 5 (00_scope.md R14). -/
  calDen : Nat
  /-- TICK_PERIOD, OPEN and not semantic: no rule reads it (00_scope.md R15). -/
  tickPeriod : Nat
  /-- HOST_BASE, OPEN and not semantic: no rule reads it (20_memory.md R69). -/
  hostBase : Nat
  deriving DecidableEq, Repr

/-- The range of CAL_NUM and CAL_DEN outside which a configuration is refused (00_scope.md R14). -/
def Config.valid (c : Config) : Bool := decide (0 < c.calDen) && decide (c.calNum ≤ c.calDen)

/-- TONE_TABLE of the machine State.reset describes: no value is known (00_scope.md R12). -/
opaque Config.toneTable : ToneTable

/-- CH1_QUIRK of the machine State.reset describes: no value is known (00_scope.md R13). -/
opaque Config.quirk : Bool

/-- TICK_PERIOD of the machine State.reset describes: no value is known (00_scope.md R15). -/
opaque Config.period : Nat

/-- HOST_BASE of the machine State.reset describes: no value is known (20_memory.md R69). -/
opaque Config.base : Nat

/-- The configuration of the machine State.reset describes: the spec's CAL fraction 1/5 (00_scope.md R14), every OPEN
parameter without a known value. -/
def Config.machine : Config where
  ch1Quirk   := Config.quirk
  calNum     := 1
  calDen     := 5
  tickPeriod := Config.period
  hostBase   := Config.base

/-- MAX_IDLE_TICKS (00_scope.md R8). -/
def Config.maxIdleTicks : Byte := 13#8

end Sys2Proof
end

