-- ==== Sys2Proof/Syntax.lean ====
section
/-! DEFINITION. The stimuli, one constructor per row of spec/opcode_table.json, and the three reasons a word spells none. -/

namespace Sys2Proof

/-- The stimuli of the TSC (30_encoding.md R81, R84, R85). -/
inductive Instr where
  /-- RESET (44_host_interface.md R190). -/
  | reset
  /-- TICK: the tick timer fired (43_tick_dispatcher.md R170). -/
  | tick
  /-- SCAN: process one pending tick with a measured count (40_channel_scanner.md R100). -/
  | scan (count : Half)
  /-- PWMB: the PWM timebase reached a period boundary (42_tone_generator.md R151). -/
  | pwmb
  /-- WR.CTRL, address 0x0 (44_host_interface.md R192). -/
  | wrCtrl (byte : Byte)
  /-- WR.STATUS, address 0x1 (44_host_interface.md R194). -/
  | wrStatus (byte : Byte)
  /-- WR.ROS, addresses 0x2 and 0x3 (44_host_interface.md R199). -/
  | wrRos (addr : HostAddr) (byte : Byte)
  /-- WR.THRL, address 0x4 (44_host_interface.md R195). -/
  | wrThrl (byte : Byte)
  /-- WR.THRH, address 0x5 (44_host_interface.md R196). -/
  | wrThrh (byte : Byte)
  /-- WR.BASEL, address 0x6 (44_host_interface.md R197). -/
  | wrBasel (byte : Byte)
  /-- WR.BASEH, address 0x7 (44_host_interface.md R198). -/
  | wrBaseh (byte : Byte)
  /-- WR.ROP, addresses 0x8 to 0xB (44_host_interface.md R200). -/
  | wrRop (addr : HostAddr) (byte : Byte)
  /-- WR.RSV, addresses 0xC to 0xF (44_host_interface.md R201). -/
  | wrRsv (addr : HostAddr) (byte : Byte)
  /-- RD (44_host_interface.md R202). -/
  | rd (addr : HostAddr)
  deriving DecidableEq, Repr

/-- Why a word spells no stimulus (30_encoding.md R86). -/
inductive RefusalReason where
  /-- bits [23:16] are not all 0. -/
  | reservedBits
  /-- OP is one of 0x6 to 0xF. -/
  | reservedOp
  /-- a field that R80 requires to be 0 for this OP is not. -/
  | nonZeroOperand
  deriving DecidableEq, Repr

end Sys2Proof
end

