-- ==== Sys2Proof/WellFormed.lean ====
section
/-! DEFINITION. Which terms of Instr stand for a stimulus word: the address operand of a WR row lies in that row's range
(spec/30_encoding.md R84). Every other operand fills its field. -/

namespace Sys2Proof

/-- The address ranges of the three WR rows that carry an address. -/
def WellFormed : Instr → Bool
  | .wrRos addr _ => addr == 0x2#4 || addr == 0x3#4
  | .wrRop addr _ => decide (0x8#4 ≤ addr) && decide (addr ≤ 0xB#4)
  | .wrRsv addr _ => decide (0xC#4 ≤ addr)
  | .reset | .tick | .scan _ | .pwmb | .wrCtrl _ | .wrStatus _ | .wrThrl _ | .wrThrh _ | .wrBasel _ | .wrBaseh _
  | .rd _ => true

end Sys2Proof
end

