-- ==== Sys2Proof/Decode.lean ====
section
/-! DEFINITION. The stimulus encoding (spec/30_encoding.md): the fields of a word, the decoder of R84 (total, refusing by
reason), the encoder of R89, and the rows of spec/opcode_table.json as match and mask. -/

namespace Sys2Proof

/-- OP, bits [31:28] (R80). -/
def fieldOp (w : StimWord) : BitVec 4 := w.extractLsb' 28 4

/-- ADDR, bits [27:24] (R80). -/
def fieldAddr (w : StimWord) : HostAddr := w.extractLsb' 24 4

/-- RSV, bits [23:16] (R80). -/
def fieldRsv (w : StimWord) : Byte := w.extractLsb' 16 8

/-- DATA, bits [15:0] (R80). -/
def fieldData (w : StimWord) : Half := w.extractLsb' 0 16

/-- DATA[7:0], the byte a WR writes (R82). -/
def fieldByte (w : StimWord) : Byte := w.extractLsb' 0 8

/-- DATA[15:8], which a WR requires to be 0 (R80). -/
def fieldDataHigh (w : StimWord) : Byte := w.extractLsb' 8 8

/-- Accept `i` if the fields R80 requires to be 0 are 0. -/
def acceptIf (zeros : Bool) (i : Instr) : Except RefusalReason Instr :=
  if zeros then .ok i else .error .nonZeroOperand

/-- The WR row an address selects (R84). -/
def decodeWrite (addr : HostAddr) (byte : Byte) : Instr :=
  match addr.toNat with
  | 0x0 => .wrCtrl byte
  | 0x1 => .wrStatus byte
  | 0x2 => .wrRos addr byte
  | 0x3 => .wrRos addr byte
  | 0x4 => .wrThrl byte
  | 0x5 => .wrThrh byte
  | 0x6 => .wrBasel byte
  | 0x7 => .wrBaseh byte
  | 0x8 => .wrRop addr byte
  | 0x9 => .wrRop addr byte
  | 0xA => .wrRop addr byte
  | 0xB => .wrRop addr byte
  | _   => .wrRsv addr byte

/-- The complete decode, in R84's priority order: reserved bits first, then the operand rules of each OP (60 R227). -/
def decode (w : StimWord) : Except RefusalReason Instr :=
  if fieldRsv w ≠ 0#8 then .error .reservedBits
  else match (fieldOp w).toNat with
    | 0x0 => acceptIf (fieldAddr w == 0#4 && fieldData w == 0#16) .reset
    | 0x1 => acceptIf (fieldAddr w == 0#4 && fieldData w == 0#16) .tick
    | 0x2 => acceptIf (fieldAddr w == 0#4) (.scan (fieldData w))
    | 0x3 => acceptIf (fieldAddr w == 0#4 && fieldData w == 0#16) .pwmb
    | 0x4 => acceptIf (fieldDataHigh w == 0#8) (decodeWrite (fieldAddr w) (fieldByte w))
    | 0x5 => acceptIf (fieldData w == 0#16) (.rd (fieldAddr w))
    | _   => .error .reservedOp

/-- A word from its fields: `{OP, ADDR, RSV = 0, DATA}` (R80). -/
def wordOf (op : BitVec 4) (addr : HostAddr) (data : Half) : StimWord := op ++ addr ++ 0#8 ++ data

/-- The word of a WR: DATA[15:8] is 0 (R80). -/
def writeWord (addr : HostAddr) (byte : Byte) : StimWord := wordOf 0x4#4 addr (0#8 ++ byte)

/-- The word of a stimulus (R89's encoding column). -/
def encode : Instr → StimWord
  | .reset           => wordOf 0x0#4 0#4 0#16
  | .tick            => wordOf 0x1#4 0#4 0#16
  | .scan count      => wordOf 0x2#4 0#4 count
  | .pwmb            => wordOf 0x3#4 0#4 0#16
  | .wrCtrl byte     => writeWord 0x0#4 byte
  | .wrStatus byte   => writeWord 0x1#4 byte
  | .wrRos addr byte => writeWord addr byte
  | .wrThrl byte     => writeWord 0x4#4 byte
  | .wrThrh byte     => writeWord 0x5#4 byte
  | .wrBasel byte    => writeWord 0x6#4 byte
  | .wrBaseh byte    => writeWord 0x7#4 byte
  | .wrRop addr byte => writeWord addr byte
  | .wrRsv addr byte => writeWord addr byte
  | .rd addr         => wordOf 0x5#4 addr 0#16

/-- One row of spec/opcode_table.json. -/
structure TableRow where
  mnemonic : String
  pattern  : StimWord
  mask     : StimWord
  deriving DecidableEq, Repr

/-- Whether a word is one of the row's words. -/
def TableRow.covers (r : TableRow) (w : StimWord) : Bool := w &&& r.mask == r.pattern

/-- The opcode table's rows by constructor, as spec/opcode_table.json gives them. -/
def Instr.row : Instr → TableRow
  | .reset      => ⟨"RESET",     0x00000000#32, 0xFFFFFFFF#32⟩
  | .tick       => ⟨"TICK",      0x10000000#32, 0xFFFFFFFF#32⟩
  | .scan _     => ⟨"SCAN",      0x20000000#32, 0xFFFF0000#32⟩
  | .pwmb       => ⟨"PWMB",      0x30000000#32, 0xFFFFFFFF#32⟩
  | .wrCtrl _   => ⟨"WR.CTRL",   0x40000000#32, 0xFFFFFF00#32⟩
  | .wrStatus _ => ⟨"WR.STATUS", 0x41000000#32, 0xFFFFFF00#32⟩
  | .wrRos _ _  => ⟨"WR.ROS",    0x42000000#32, 0xFEFFFF00#32⟩
  | .wrThrl _   => ⟨"WR.THRL",   0x44000000#32, 0xFFFFFF00#32⟩
  | .wrThrh _   => ⟨"WR.THRH",   0x45000000#32, 0xFFFFFF00#32⟩
  | .wrBasel _  => ⟨"WR.BASEL",  0x46000000#32, 0xFFFFFF00#32⟩
  | .wrBaseh _  => ⟨"WR.BASEH",  0x47000000#32, 0xFFFFFF00#32⟩
  | .wrRop _ _  => ⟨"WR.ROP",    0x48000000#32, 0xFCFFFF00#32⟩
  | .wrRsv _ _  => ⟨"WR.RSV",    0x4C000000#32, 0xFCFFFF00#32⟩
  | .rd _       => ⟨"RD",        0x50000000#32, 0xF0FFFFFF#32⟩

/-- Every row of the table, in the table's order. -/
def opcodeTable : List TableRow :=
  [Instr.reset, .tick, .scan 0, .pwmb, .wrCtrl 0, .wrStatus 0, .wrRos 2 0, .wrThrl 0, .wrThrh 0, .wrBasel 0, .wrBaseh 0,
    .wrRop 8 0, .wrRsv 12 0, .rd 0].map Instr.row

/-- The word whose lowest `nbits` bits are those of `w`, every bit above them 0 (one stimulus is one 32-bit word, R88). -/
def tableWord (nbits w : Nat) : StimWord := BitVec.ofNat 32 (w % 2 ^ nbits)

/-- What the decoder reads from the stimulus whose bits are `w`. -/
def decodeTableWord (nbits w : Nat) : Option Instr :=
  match decode (tableWord nbits w) with
  | .ok i    => some i
  | .error _ => none

end Sys2Proof
end

