-- ==== Sys2Proof/Machine/State.lean ====
section
/-! DEFINITION. The architectural state (spec/10_state.md), the model's own bookkeeping beside it, and why a step stops. -/

namespace Sys2Proof.Machine

/-- The sequencer phase (10_state.md R30). -/
inductive Phase where
  | ready
  | wait
  deriving DecidableEq, Repr

/-- The output events of OUTTRACE (00_scope.md R17, 10_state.md R43). -/
inductive OutEvent where
  | indicator (on : Bool)
  | pwmEn (on : Bool)
  | period (v : Half)
  | duty (v : Half)
  | chsel (c : Channel)
  | cntClear
  | reset
  deriving DecidableEq, Repr

/-- One byte an RD put on the host bus: the address read and the result (44_host_interface.md R202). -/
structure HostRead where
  addr : HostAddr
  data : Byte
  deriving DecidableEq, Repr

/-- The state of the TSC. Every field down to `refusals` is named by the spec; the last two are the model's own. -/
structure State where
  /-- SELCH, the channel being measured (R22). CPS_CHSEL is the same storage (R37). -/
  selch : Channel
  /-- SNDCH, the sounding channel; `none` is the spec's NONE, encoded 7 in CHAN (R23). -/
  sndch : Option Channel
  /-- IDLECNT (R25). -/
  idleCnt : Byte
  /-- THRESH (R26). -/
  thresh : Half
  /-- BASELINE (R27). -/
  baseline : Half
  /-- RUN (R28). -/
  run : Bool
  /-- TICKPEND (R29). -/
  tickPend : Bool
  /-- PHASE (R30). -/
  phase : Phase
  /-- TICKLOST (R31). -/
  tickLost : Bool
  /-- PWM_EN (R33). -/
  pwmEn : Bool
  /-- PWM_PERIOD (R34). -/
  pwmPeriod : Half
  /-- PWM_DUTY (R35). -/
  pwmDuty : Half
  /-- INDICATOR (R36). -/
  indicator : Bool
  /-- TONE, the Tone Table ROM: no operation writes it (R39). -/
  tone : ToneTable
  /-- The implementation parameters: no operation writes them (00_scope.md section 3). -/
  config : Config
  /-- OUTTRACE, oldest event first (R43). -/
  outTrace : List OutEvent
  /-- The reasons recorded for the words refused so far, oldest first (30_encoding.md R86); the refusal mark is set when there is
  one (`marked`; log entry 5). -/
  refusals : List RefusalReason
  /-- The model's own: the stimulus words not yet taken, oldest first; the total order of R71 (log entry 3). -/
  stimuli : List StimWord
  /-- The model's own: what the RDs so far have answered, oldest first (log entry 6). -/
  hostReads : List HostRead
  deriving DecidableEq, Repr

/-- The refusal mark: some word was refused; nothing clears it (30_encoding.md R86, 44_host_interface.md R190). -/
def State.marked (s : State) : Bool := !s.refusals.isEmpty

/-- Why no step exists. -/
inductive Fault where
  /-- Raised by SCAN when RUN = 0, PHASE = WAIT or TICKPEND = 0: the spec's "stuck" (40_channel_scanner.md R106). Safe. -/
  | scanStuck
  /-- Raised by the fetch when no stimulus is left: each step is a stimulus (00_scope.md R2; log entry 3). Safe. -/
  | noStimulus
  deriving DecidableEq, Repr

/-- Why the model gives no meaning. -/
inductive Refusal where
  /-- Raised by exec's arm for a stimulus without a meaning; no arm raises it. Safe. -/
  | notModelled (mnemonic : String)
  /-- Raised by the fetch for a word that spells no stimulus, and for no other word (30_encoding.md R86, 60_exceptions.md R221):
  the reason, and the marked state, from which the run goes on (`runStep`; log entry 5). Safe. -/
  | malformed (reason : RefusalReason) (marked : State)
  /-- Raised by the fetch, and by a calibration, when CAL_NUM and CAL_DEN are outside their range (00_scope.md R14). Safe. -/
  | configOutOfRange
  deriving DecidableEq, Repr

/-- The machine right after reset (70_reset_and_hazards.md R250), with no event emitted and no stimulus presented yet (R43; log
entries 3, 4 and 6). -/
def State.reset : State where
  selch     := 0
  sndch     := none
  idleCnt   := 0#8
  thresh    := 0#16
  baseline  := 0#16
  run       := false
  tickPend  := false
  phase     := .ready
  tickLost  := false
  pwmEn     := false
  pwmPeriod := 0#16
  pwmDuty   := 0#16
  indicator := false
  tone      := Config.toneTable
  config    := Config.machine
  outTrace  := []
  refusals  := []
  stimuli   := []
  hostReads := []

end Sys2Proof.Machine
end

