-- ==== Sys2Proof/Machine/Operands.lean ====
section
/-! DEFINITION. The operands of the host's accesses: the two bytes of a 16-bit register (spec/20_memory.md R62) and the bits of
a written byte (spec/00_scope.md R16). -/

namespace Sys2Proof.Machine

/-- Bits [7:0] of a 16-bit register, at the lower address (R62). -/
def lowByte (v : Half) : Byte := v.extractLsb' 0 8

/-- Bits [15:8] of a 16-bit register, at the next address (R62). -/
def highByte (v : Half) : Byte := v.extractLsb' 8 8

/-- `v` with bits [7:0] replaced by `b`. -/
def setLowByte (v : Half) (b : Byte) : Half := highByte v ++ b

/-- `v` with bits [15:8] replaced by `b`. -/
def setHighByte (v : Half) (b : Byte) : Half := b ++ lowByte v

/-- Bit `i` of a byte (00_scope.md R16). -/
def bitOf (b : Byte) (i : Nat) : Bool := b.getLsbD i

/-- The number of a channel as three bits (10_state.md R22). -/
def channelBits (c : Channel) : BitVec 3 := BitVec.ofNat 3 c.val

/-- SNDCH as the host sees it: 7 encodes NONE (10_state.md R23). -/
def soundingBits : Option Channel → BitVec 3
  | none   => 7#3
  | some c => channelBits c

/-- CPS_CHSEL, which always equals SELCH (10_state.md R37). -/
def State.cpsChsel (s : State) : BitVec 3 := channelBits s.selch

end Sys2Proof.Machine
end

