-- ==== Sys2Proof/Machine/Flags.lean ====
section
/-! DEFINITION. The combinational conditions (the TSC stores no condition code, spec/10_state.md R32), the flag bytes CTRL, STATUS
and CHAN, and the byte each host address reads (spec/44_host_interface.md R202). -/

namespace Sys2Proof.Machine

/-- The touch comparator: an unsigned strict comparison (40_channel_scanner.md R101). -/
def touched (count thresh : Half) : Bool := count.ult thresh

/-- When SCAN has a step (40_channel_scanner.md R106). -/
def State.scanEnabled (s : State) : Bool := s.run && s.phase == .ready && s.tickPend

/-- CTRL: bit 0 RUN; CAL and the reserved bits read 0. -/
def ctrlByte (s : State) : Byte := 0#7 ++ BitVec.ofBool s.run

/-- STATUS: {00, INDICATOR, PWM_EN, TICKLOST, TICKPEND, PHASE = WAIT, SNDCH ≠ NONE}. -/
def statusByte (s : State) : Byte :=
  0#2 ++ BitVec.ofBool s.indicator ++ BitVec.ofBool s.pwmEn ++ BitVec.ofBool s.tickLost ++ BitVec.ofBool s.tickPend
    ++ BitVec.ofBool (s.phase == .wait) ++ BitVec.ofBool s.sndch.isSome

/-- CHAN: {0, SNDCH, 0, SELCH}. -/
def chanByte (s : State) : Byte := 0#1 ++ soundingBits s.sndch ++ 0#1 ++ s.cpsChsel

/-- MemRead(addr, 1): the byte the host reads at an address, a view of the named registers (20_memory.md R61, R202). -/
def hostRead (s : State) (addr : HostAddr) : Byte :=
  match addr.toNat with
  | 0x0 => ctrlByte s
  | 0x1 => statusByte s
  | 0x2 => chanByte s
  | 0x3 => s.idleCnt
  | 0x4 => lowByte s.thresh
  | 0x5 => highByte s.thresh
  | 0x6 => lowByte s.baseline
  | 0x7 => highByte s.baseline
  | 0x8 => lowByte s.pwmPeriod
  | 0x9 => highByte s.pwmPeriod
  | 0xA => lowByte s.pwmDuty
  | 0xB => highByte s.pwmDuty
  | _   => 0x00#8

end Sys2Proof.Machine
end

