-- ==== Sys2Proof/Machine/Ops.lean ====
section
/-! DEFINITION. The operations the stimuli share: writing an output register together with its event, the round-robin advance,
the rearm, and taking the next stimulus. The TSC takes no exception and returns from none (spec/60_exceptions.md R220, R228, R229):
its tick service is SCAN, and the service's return is `finish` (Machine/TickDispatcher.lean). -/

namespace Sys2Proof.Machine

/-- An outcome in this model. -/
abbrev Answer (α : Type) := Host.Outcome α Fault Refusal

/-- Out(e): append an event to OUTTRACE (00_scope.md R17). -/
def emit (e : OutEvent) (s : State) : State := { s with outTrace := s.outTrace ++ [e] }

/-- INDICATOR <- on; Out(indicator(on)). -/
def setIndicator (on : Bool) (s : State) : State := emit (.indicator on) { s with indicator := on }

/-- PWM_EN <- on; Out(pwmEn(on)). -/
def setPwmEn (on : Bool) (s : State) : State := emit (.pwmEn on) { s with pwmEn := on }

/-- PWM_PERIOD <- v; Out(period(v)). -/
def setPwmPeriod (v : Half) (s : State) : State := emit (.period v) { s with pwmPeriod := v }

/-- PWM_DUTY <- v; Out(duty(v)). -/
def setPwmDuty (v : Half) (s : State) : State := emit (.duty v) { s with pwmDuty := v }

/-- SELCH <- c; Out(chsel(c)) (10_state.md R37). -/
def selectChannel (c : Channel) (s : State) : State := emit (.chsel c) { s with selch := c }

/-- Advance(): SELCH <- (SELCH + 1) mod 7 (40_channel_scanner.md R102); addition of channels wraps at 7. -/
def advance (s : State) : State := selectChannel (s.selch + 1) s

/-- Rearm(): the CNT_CLR pulse, which writes no register (43_tick_dispatcher.md R172). -/
def rearm (s : State) : State := emit .cntClear s

/-- Record why a word was refused, which sets the refusal mark for good (30_encoding.md R86). -/
def recordRefusal (r : RefusalReason) (s : State) : State := { s with refusals := s.refusals ++ [r] }

/-- Take the next stimulus: refuse a configuration out of range (00_scope.md R14); else take the oldest pending word and decode it,
refusing one that spells no stimulus, with its reason and the marked state (30_encoding.md R86). The mark stops nothing: every
stimulus of a marked run has its step (44_host_interface.md R190). -/
def fetch (s : State) : Answer (Instr × State) :=
  if s.config.valid then
    match s.stimuli with
    | [] => .fault .noStimulus
    | w :: rest =>
      match decode w with
      | .ok i    => .next (i, { s with stimuli := rest })
      | .error r => .refused (.malformed r (recordRefusal r { s with stimuli := rest }))
  else .refused .configOutOfRange

end Sys2Proof.Machine
end

