-- ==== Sys2Proof/Machine/TickDispatcher.lean ====
section
/-! DEFINITION. The Tick Dispatcher: TICK and Finish (spec/43_tick_dispatcher.md). -/

namespace Sys2Proof.Machine

/-- Finish(), the end of tick service: Advance, Rearm, TICKPEND <- 0, in this order (R171). -/
def finish (s : State) : State := { rearm (advance s) with tickPend := false }

/-- TICK (R170): ignored while RUN = 0 (R175), coalesced and recorded as lost while a tick is pending (R174). -/
def execTick (s : State) : Answer State :=
  .next (if s.run then (if s.tickPend then { s with tickLost := true } else { s with tickPend := true }) else s)

end Sys2Proof.Machine
end

