-- ==== Sys2Proof/Machine/ToneGenerator.lean ====
section
/-! DEFINITION. The Tone Generator: StartTone, StopTone and PWMB (spec/42_tone_generator.md). -/

namespace Sys2Proof.Machine

/-- rec(ch), the channel a start records: 0 for channel 1 under CH1_QUIRK (41_note_state_machine.md R122). -/
def recordedChannel (quirk : Bool) (ch : Channel) : Channel := if quirk && ch == 1 then 0 else ch

/-- StartTone(ch) (R150): record, light, disable, program TONE[ch] (R155), and wait for a boundary; the order is normative
(R153, 70_reset_and_hazards.md R262). -/
def startTone (ch : Channel) (s : State) : State :=
  let recorded := { s with sndch := some (recordedChannel s.config.ch1Quirk ch) }
  let off := setPwmEn false (setIndicator true recorded)
  let programmed := setPwmDuty s.tone[ch].duty (setPwmPeriod s.tone[ch].period off)
  { programmed with phase := .wait }

/-- StopTone() (R152): PWM_PERIOD and PWM_DUTY keep their values (R154). -/
def stopTone (s : State) : State := { setPwmEn false (setIndicator false s) with sndch := none }

/-- The completion of a start sequence: re-enable, clear IDLECNT, leave WAIT, then Finish (R151). -/
def completeStart (s : State) : State := finish { setPwmEn true s with idleCnt := 0#8, phase := .ready }

/-- PWMB (R151): no effect and no event in READY; no latch of an earlier boundary (R156). -/
def execPwmb (s : State) : Answer State :=
  .next (match s.phase with
    | .wait  => completeStart s
    | .ready => s)

end Sys2Proof.Machine
end

