-- ==== Sys2Proof/Machine/NoteStateMachine.lean ====
section
/-! DEFINITION. The Note State Machine's two branches (spec/41_note_state_machine.md). -/

namespace Sys2Proof.Machine

/-- NoteTouch(ch) (R120): a touch on a channel that is not the recorded one starts it; on the recorded one it clears IDLECNT. -/
def noteTouch (ch : Channel) (s : State) : State :=
  if s.sndch = some ch then { s with idleCnt := 0#8 } else startTone ch s

/-- NoteIdle() (R121): count a no-touch tick of any channel (R126), sounding or not (R127); at MAX_IDLE_TICKS stop and clear. -/
def noteIdle (s : State) : State :=
  let counted := { s with idleCnt := s.idleCnt + 1#8 }
  if counted.idleCnt = Config.maxIdleTicks then { stopTone counted with idleCnt := 0#8 } else counted

end Sys2Proof.Machine
end

