-- ==== Sys2Proof/Machine/ChannelScanner.lean ====
section
/-! DEFINITION. The Channel Scanner: SCAN (spec/40_channel_scanner.md). -/

namespace Sys2Proof.Machine

/-- The note decision of one processed tick (R100). -/
def noteStep (count : Half) (s : State) : State :=
  if touched count s.thresh then noteTouch s.selch s else noteIdle s

/-- Finish, unless the step left the phase WAIT (R100). -/
def finishIfReady (s : State) : State :=
  match s.phase with
  | .ready => finish s
  | .wait  => s

/-- SCAN(count) (R100): stuck unless RUN = 1, PHASE = READY and TICKPEND = 1 (R106). -/
def execScan (count : Half) (s : State) : Answer State :=
  if s.scanEnabled then .next (finishIfReady (noteStep count s)) else .fault .scanStuck

end Sys2Proof.Machine
end

