-- ==== Sys2Proof/Machine/HostInterface.lean ====
section
/-! DEFINITION. The host interface: RESET, the writes, RD and the calibration (spec/44_host_interface.md). -/

namespace Sys2Proof.Machine

/-- CalThreshold(b) = b − floor((2·b·CAL_NUM + CAL_DEN) / (2·CAL_DEN)), in unbounded integers (R193). -/
def calThreshold (c : Config) (b : Half) : Half :=
  BitVec.ofNat 16 (b.toNat - (2 * b.toNat * c.calNum + c.calDen) / (2 * c.calDen))

/-- RESET (R190): every register to its reset value and the event `reset`. TONE, the configuration, OUTTRACE's earlier events, the
refusal mark with its reasons and the model's own lists stay. -/
def execReset (s : State) : Answer State :=
  .next (emit .reset
    { State.reset with
      tone := s.tone, config := s.config, outTrace := s.outTrace, refusals := s.refusals, stimuli := s.stimuli,
      hostReads := s.hostReads })

/-- THRESH <- CalThreshold(BASELINE) (R192, R193). -/
def calibrate (s : State) : State := { s with thresh := calThreshold s.config s.baseline }

/-- WR.CTRL (R192): while RUN = 0, bit 1 calibrates first, then bit 0 sets RUN; RUN = 1 ignores the write. A calibration by a
fraction out of range is refused (00_scope.md R14). -/
def execWrCtrl (byte : Byte) (s : State) : Answer State :=
  if s.run then .next s
  else if bitOf byte 1 && !s.config.valid then .refused .configOutOfRange
  else
    let calibrated := if bitOf byte 1 then calibrate s else s
    .next (if bitOf byte 0 then { calibrated with run := true } else calibrated)

/-- WR.STATUS (R194): bit 3 clears TICKLOST; every other bit is ignored. -/
def execWrStatus (byte : Byte) (s : State) : Answer State :=
  .next (if bitOf byte 3 then { s with tickLost := false } else s)

/-- WR.ROS (R199): no effect. -/
def execWrRos (_addr : HostAddr) (_byte : Byte) (s : State) : Answer State := .next s

/-- WR.THRL (R195): ignored while RUN = 1. -/
def execWrThrl (byte : Byte) (s : State) : Answer State :=
  .next (if s.run then s else { s with thresh := setLowByte s.thresh byte })

/-- WR.THRH (R196): ignored while RUN = 1. -/
def execWrThrh (byte : Byte) (s : State) : Answer State :=
  .next (if s.run then s else { s with thresh := setHighByte s.thresh byte })

/-- WR.BASEL (R197): stored in any state. -/
def execWrBasel (byte : Byte) (s : State) : Answer State := .next { s with baseline := setLowByte s.baseline byte }

/-- WR.BASEH (R198): stored in any state. -/
def execWrBaseh (byte : Byte) (s : State) : Answer State := .next { s with baseline := setHighByte s.baseline byte }

/-- WR.ROP (R200): no effect. -/
def execWrRop (_addr : HostAddr) (_byte : Byte) (s : State) : Answer State := .next s

/-- WR.RSV (R201): no effect. -/
def execWrRsv (_addr : HostAddr) (_byte : Byte) (s : State) : Answer State := .next s

/-- RD (R202): the byte goes to the host bus; no register changes and no event is emitted (20_memory.md R67). -/
def execRd (addr : HostAddr) (s : State) : Answer State :=
  .next { s with hostReads := s.hostReads ++ [⟨addr, hostRead s addr⟩] }

end Sys2Proof.Machine
end

