-- ==== Sys2Proof/Machine/Dispatch.lean ====
section
/-! DEFINITION. One arm per stimulus (the rows of spec/opcode_table.json). -/

namespace Sys2Proof.Machine

def exec (i : Instr) (s : State) : Host.Outcome State Fault Refusal :=
  match i with
  | .reset => Sys2Proof.Machine.execReset s
  | .tick => Sys2Proof.Machine.execTick s
  | .scan count => Sys2Proof.Machine.execScan count s
  | .pwmb => Sys2Proof.Machine.execPwmb s
  | .wrCtrl byte => Sys2Proof.Machine.execWrCtrl byte s
  | .wrStatus byte => Sys2Proof.Machine.execWrStatus byte s
  | .wrRos addr byte => Sys2Proof.Machine.execWrRos addr byte s
  | .wrThrl byte => Sys2Proof.Machine.execWrThrl byte s
  | .wrThrh byte => Sys2Proof.Machine.execWrThrh byte s
  | .wrBasel byte => Sys2Proof.Machine.execWrBasel byte s
  | .wrBaseh byte => Sys2Proof.Machine.execWrBaseh byte s
  | .wrRop addr byte => Sys2Proof.Machine.execWrRop addr byte s
  | .wrRsv addr byte => Sys2Proof.Machine.execWrRsv addr byte s
  | .rd addr => Sys2Proof.Machine.execRd addr s

end Sys2Proof.Machine
end

