-- ==== Sys2Proof/Machine/Step.lean ====
section
/-! DEFINITION. One step: take the next stimulus and execute it, as one atomic step (spec/00_scope.md R2, R18). -/

namespace Sys2Proof.Machine

/-- One step of the machine. -/
def step (s : State) : Host.Outcome State Fault Refusal :=
  match fetch s with
  | .next (i, s') => exec i s'
  | .fault f      => .fault f
  | .refused r    => .refused r

/-- `s` with the stimulus of bits `w` as its next one (log entry 3). -/
def State.withFetchWord (s : State) (nbits w : Nat) : State := { s with stimuli := tableWord nbits w :: s.stimuli }

end Sys2Proof.Machine
end

