-- ==== Sys2Proof/Machine/Assembler.lean ====
section
/-! DEFINITION. The assembler forms and pseudo-stimuli (spec/30_encoding.md R89, R90), as data: a line's text is not parsed. -/

namespace Sys2Proof.Machine

/-- The register names of R89. -/
inductive RegName where
  | ctrl | status | chan | idle | thrl | thrh | basel | baseh | perl | perh | dutl | duth
  deriving DecidableEq, Repr

/-- A register operand: a name, or an address (R89). -/
inductive RegOperand where
  | named (r : RegName)
  | address (a : Nat)
  deriving DecidableEq, Repr

/-- The address of a register name (20_memory.md R61). -/
def regAddr : RegName → Nat
  | .ctrl => 0x0 | .status => 0x1 | .chan => 0x2 | .idle => 0x3 | .thrl => 0x4 | .thrh => 0x5
  | .basel => 0x6 | .baseh => 0x7 | .perl => 0x8 | .perh => 0x9 | .dutl => 0xA | .duth => 0xB

/-- The address a register operand names. -/
def operandAddr : RegOperand → Nat
  | .named r   => regAddr r
  | .address a => a

/-- The syntax column of R89; the annotation `-> v` of an RD is no part of the encoding. -/
inductive AsmLine where
  | reset
  | tick
  | scan (n : Nat)
  | pwmb
  | wr (r : RegOperand) (b : Nat)
  | rd (r : RegOperand)
  deriving DecidableEq, Repr

/-- The encoding column of R89; `none` is an assembly error, an operand out of range. -/
def assemble : AsmLine → Option StimWord
  | .reset  => some 0x00000000#32
  | .tick   => some 0x10000000#32
  | .scan n => if n ≤ 65535 then some (0x20000000#32 ||| BitVec.ofNat 32 n) else none
  | .pwmb   => some 0x30000000#32
  | .wr r b =>
    if operandAddr r ≤ 0xF ∧ b ≤ 255 then
      some (0x40000000#32 ||| (BitVec.ofNat 32 (operandAddr r) <<< 24) ||| BitVec.ofNat 32 b)
    else none
  | .rd r   =>
    if operandAddr r ≤ 0xF then some (0x50000000#32 ||| (BitVec.ofNat 32 (operandAddr r) <<< 24)) else none

/-- The pseudo-stimuli of R90. -/
inductive Pseudo where
  | wr16Thr (v : Half)
  | wr16Base (v : Half)
  | rd16Per
  | rd16Dut
  | rd16Thr
  | start
  | calrun
  | clrlost
  | ts (n : Nat)
  | tsb (n : Nat)
  deriving DecidableEq, Repr

/-- The two one-byte writes of a 16-bit value, low byte first (R90). -/
def writeBoth (low high : RegName) (v : Half) : List AsmLine :=
  [.wr (.named low) (v.toNat % 256), .wr (.named high) (v.toNat / 256)]

/-- The two one-byte reads of a 16-bit value, low byte first; not atomic (R90). -/
def readBoth (low high : RegName) : List AsmLine := [.rd (.named low), .rd (.named high)]

/-- The expansion column of R90. -/
def expand : Pseudo → List AsmLine
  | .wr16Thr v  => writeBoth .thrl .thrh v
  | .wr16Base v => writeBoth .basel .baseh v
  | .rd16Per    => readBoth .perl .perh
  | .rd16Dut    => readBoth .dutl .duth
  | .rd16Thr    => readBoth .thrl .thrh
  | .start      => [.wr (.named .ctrl) 0x01]
  | .calrun     => [.wr (.named .ctrl) 0x03]
  | .clrlost    => [.wr (.named .status) 0x08]
  | .ts n       => [.tick, .scan n]
  | .tsb n      => [.tick, .scan n, .pwmb]

end Sys2Proof.Machine
end

