-- ==== Sys2Proof/Machine/Run.lean ====
section
/-! DEFINITION. How a run goes on after a refused word (spec/30_encoding.md R86, spec/44_host_interface.md R190). -/

namespace Sys2Proof.Machine

/-- One word of a run: a refused word takes no step and leaves its mark behind (R86), and the run goes on from there. -/
def runStep (s : State) : Answer State :=
  match step s with
  | .refused (.malformed _ marked) => .next marked
  | answer                         => answer

/-- The next `k` words of a run, up to the first that leaves no state to go on from. -/
def runWords (k : Nat) (s : State) : Answer State :=
  Host.Core.run ⟨State, Fault, Refusal, runStep, State.reset⟩ k s

end Sys2Proof.Machine
end

