-- ==== Sys2Proof/Safety.lean ====
section
/-! DEFINITION. The terms the claims are stated in: the invariants of spec/10_state.md R42, the PWM switching order of
spec/42_tone_generator.md R153, what an output trace shows, a held note, streams of stimuli, and
the environment assumptions of spec/60_exceptions.md R234. -/

namespace Sys2Proof.Safety

open Sys2Proof Sys2Proof.Machine

/-- The tone registers hold the entry of channel `c`. -/
abbrev Programmed (s : State) (c : Channel) : Prop :=
  s.pwmPeriod = s.tone[c].period ∧ s.pwmDuty = s.tone[c].duty

/-- R42 as an invariant that steps keep: items 1 and 2 hold by the types of SELCH and SNDCH, and items 7 and 8 are joined in
`toneOwn`, which speaks of both phases (a start sequence programs the tone and records the channel in one step). -/
structure StateInv (s : State) : Prop where
  idleBound : s.idleCnt.toNat ≤ 12
  inWait : s.phase = .wait →
    s.run = true ∧ s.tickPend = true ∧ s.sndch ≠ none ∧ s.indicator = true ∧ s.pwmEn = false
  stopped : s.run = false →
    s.phase = .ready ∧ s.tickPend = false ∧ s.sndch = none ∧ s.selch = 0 ∧ s.idleCnt = 0#8 ∧ s.pwmEn = false
      ∧ s.indicator = false
  inReady : s.phase = .ready → s.indicator = s.sndch.isSome ∧ s.pwmEn = s.sndch.isSome
  toneOwn : ∀ c, s.sndch = some c → Programmed s c ∨ (s.config.ch1Quirk = true ∧ c = 0 ∧ Programmed s 1)

/-- The eight checks of R42, item by item. -/
def SpecChecks (s : State) : Prop :=
  (channelBits s.selch).toNat ≤ 6
  ∧ ((soundingBits s.sndch).toNat ≤ 6 ∨ s.sndch = none ∧ soundingBits s.sndch = 7#3)
  ∧ s.idleCnt.toNat ≤ 12
  ∧ (s.phase = .wait → s.run = true ∧ s.tickPend = true ∧ s.sndch ≠ none ∧ s.indicator = true ∧ s.pwmEn = false)
  ∧ (s.run = false → s.phase = .ready ∧ s.tickPend = false ∧ s.sndch = none ∧ s.selch = 0 ∧ s.idleCnt = 0#8
      ∧ s.pwmEn = false ∧ s.indicator = false)
  ∧ (s.phase = .ready → (s.indicator = true ↔ s.sndch ≠ none) ∧ (s.sndch ≠ none ↔ s.pwmEn = true))
  ∧ (s.phase = .ready → s.config.ch1Quirk = false → ∀ c, s.sndch = some c → Programmed s c)
  ∧ (s.phase = .ready → s.config.ch1Quirk = true → ∀ c, s.sndch = some c → ¬ Programmed s c →
      c = 0 ∧ Programmed s 1)

/-- R250's table: every register after RESET, and the bytes the host then reads. -/
def AfterReset (t : State) : Prop :=
  t.selch = 0 ∧ t.cpsChsel = 0#3 ∧ t.sndch = none ∧ t.idleCnt = 0#8 ∧ t.thresh = 0#16 ∧ t.baseline = 0#16
  ∧ t.run = false ∧ t.phase = .ready ∧ t.tickPend = false ∧ t.tickLost = false
  ∧ t.pwmEn = false ∧ t.pwmPeriod = 0#16 ∧ t.pwmDuty = 0#16 ∧ t.indicator = false
  ∧ ∀ a : HostAddr, hostRead t a = if a = 0x2#4 then 0x70#8 else 0x00#8

/-- Whether an event writes a tone register. -/
def programsPwm : OutEvent → Bool
  | .period _ => true
  | .duty _   => true
  | .indicator _ | .pwmEn _ | .chsel _ | .cntClear | .reset => false

/-- Glitch-free switching (R153): every `period(v)` or `duty(v)` comes after a `pwmEn(0)` with no `pwmEn(1)` in between. -/
def GlitchFree (trace : List OutEvent) : Prop :=
  ∀ before e after, trace = before ++ e :: after → programsPwm e = true →
    ∃ earlier between, before = earlier ++ .pwmEn false :: between ∧ OutEvent.pwmEn true ∉ between

/-- The output registers an output trace shows. -/
structure Outputs where
  chsel     : Channel
  pwmEn     : Bool
  pwmPeriod : Half
  pwmDuty   : Half
  indicator : Bool
  deriving DecidableEq, Repr

/-- The outputs after reset (70_reset_and_hazards.md R250). -/
def Outputs.zero : Outputs := ⟨0, false, 0#16, 0#16, false⟩

/-- What one event says of the outputs. -/
def Outputs.after (o : Outputs) : OutEvent → Outputs
  | .indicator on => { o with indicator := on }
  | .pwmEn on     => { o with pwmEn := on }
  | .period v     => { o with pwmPeriod := v }
  | .duty v       => { o with pwmDuty := v }
  | .chsel c      => { o with chsel := c }
  | .cntClear     => o
  | .reset        => .zero

/-- The outputs a trace leaves, read from its events alone. -/
def shownOutputs (trace : List OutEvent) : Outputs := trace.foldl Outputs.after .zero

/-- The output registers of a state. -/
def outputsOf (s : State) : Outputs := ⟨s.selch, s.pwmEn, s.pwmPeriod, s.pwmDuty, s.indicator⟩

/-- How many ticks were processed since channel `c` was scanned last, when `selch` is the next channel to scan. -/
def ticksSince (c selch : Channel) : Nat := (selch - c - 1).val

/-- Channel `c` sounds and is held (41_note_state_machine.md R129): while it is being started SELCH is still `c`; after that
IDLECNT counts at most the ticks since `c` was scanned, which is at most 6. -/
def Held (c : Channel) (s : State) : Prop :=
  s.sndch = some c ∧ (s.phase = .wait → s.selch = c) ∧ (s.phase = .ready → s.idleCnt.toNat ≤ ticksSince c s.selch)

/-- One tick and its scan: the words of the pseudo-stimulus `TS n` (30_encoding.md R90). -/
def tickScan (count : Half) : List StimWord := [encode .tick, encode (.scan count)]

/-- A machine that runs and has no tick to process, its configuration in range. -/
def Idling (s : State) : Prop :=
  s.config.valid = true ∧ s.run = true ∧ s.phase = .ready ∧ s.tickPend = false

/-- The stimuli that neither end a WAIT by themselves, nor are stuck in it: TICK, every WR and RD. -/
def leavesWait : Instr → Bool
  | .reset | .scan _ | .pwmb => false
  | .tick | .wrCtrl _ | .wrStatus _ | .wrRos _ _ | .wrThrl _ | .wrThrh _ | .wrBasel _ | .wrBaseh _ | .wrRop _ _
  | .wrRsv _ _ | .rd _ => true

/-- An endless run: in the state before word `n` only that word is presented, and the step it then takes leads to the state before
word `n + 1`. A stream with a refused word or a stuck SCAN describes no run of the TSC (30_encoding.md R86, 40_channel_scanner.md
R106). -/
def EndlessRun (stream : Nat → StimWord) (states : Nat → State) : Prop :=
  ∀ n, step { states n with stimuli := [stream n] } = .next (states (n + 1))

/-- Word `n` of a stream spells the stimulus `i`. -/
def Spells (stream : Nat → StimWord) (n : Nat) (i : Instr) : Prop := decode (stream n) = .ok i

/-- Weak fairness of SCAN (R234, D28): a SCAN that stays enabled is taken. -/
def ScanWeaklyFair (stream : Nat → StimWord) (states : Nat → State) : Prop :=
  ∀ n, (∀ m, n ≤ m → (states m).scanEnabled = true) → ∃ m count, n ≤ m ∧ Spells stream m (.scan count)

/-- TICK recurs while RUN = 1 (R234, D28). -/
def TickRecurs (stream : Nat → StimWord) (states : Nat → State) : Prop :=
  ∀ n, (∀ m, n ≤ m → (states m).run = true) → ∃ m, n ≤ m ∧ Spells stream m .tick

/-- PWM_RUNS, the environment assumption that boundaries recur (R234, D28), of an endless stream. -/
def PwmRuns (stream : Nat → StimWord) : Prop := ∀ n, ∃ m, n ≤ m ∧ Spells stream m .pwmb

/-- The liveness facts of R234, the only ones a claim may use: they are about the environment, not about the TSC. -/
structure Environment (stream : Nat → StimWord) (states : Nat → State) : Prop where
  scanFair : ScanWeaklyFair stream states
  ticks    : TickRecurs stream states
  pwmRuns  : PwmRuns stream

/-- An endless run that, from word `n` on, scans and is not reset, in an environment that meets R234. -/
structure ScanningFrom (stream : Nat → StimWord) (states : Nat → State) (n : Nat) : Prop where
  steps       : EndlessRun stream states
  environment : Environment stream states
  running     : (states n).run = true
  noReset     : ∀ m, n ≤ m → ¬ Spells stream m .reset

end Sys2Proof.Safety
end

