-- ==== Sys2Proof/Certificates/Slice0/Obligations.lean ====
section
/-! DEFINITION. The statements for the provers, in the order of OBLIGATIONS.json. -/

open Sys2Proof Sys2Proof.Machine Sys2Proof.Safety

/-! ### The encoding (spec/30_encoding.md) -/

/-- R80, R84, R89: no bit of an operand is lost by the encoding. -/
def Obligations.DecodeOfEncode : Prop :=
  ∀ i : Instr, WellFormed i = true → decode (encode i) = .ok i

/-- R84: a word is at most one stimulus, and the stimulus has no other word. -/
def Obligations.EncodeOfDecode : Prop :=
  ∀ (w : StimWord) (i : Instr), decode w = .ok i → WellFormed i = true ∧ encode i = w

/-- R84's decode, read with OP, ADDR, RSV and DATA as numbers; it is total, and decides refusals in that order (R227). -/
def Obligations.DecodeIsTheOpcodeMap : Prop :=
  ∀ w : StimWord,
    let op := w.toNat / 2 ^ 28
    let a := w.toNat / 2 ^ 24 % 16
    let rsv := w.toNat / 2 ^ 16 % 256
    let d := w.toNat % 2 ^ 16
    let addr : HostAddr := BitVec.ofNat 4 a
    let byte : Byte := BitVec.ofNat 8 d
    decode w =
      if rsv ≠ 0 then .error .reservedBits
      else if op = 0 then (if a = 0 ∧ d = 0 then .ok .reset else .error .nonZeroOperand)
      else if op = 1 then (if a = 0 ∧ d = 0 then .ok .tick else .error .nonZeroOperand)
      else if op = 2 then (if a = 0 then .ok (.scan (BitVec.ofNat 16 d)) else .error .nonZeroOperand)
      else if op = 3 then (if a = 0 ∧ d = 0 then .ok .pwmb else .error .nonZeroOperand)
      else if op = 4 then
        (if d / 256 ≠ 0 then .error .nonZeroOperand
         else if a = 0 then .ok (.wrCtrl byte)
         else if a = 1 then .ok (.wrStatus byte)
         else if a = 2 ∨ a = 3 then .ok (.wrRos addr byte)
         else if a = 4 then .ok (.wrThrl byte)
         else if a = 5 then .ok (.wrThrh byte)
         else if a = 6 then .ok (.wrBasel byte)
         else if a = 7 then .ok (.wrBaseh byte)
         else if 8 ≤ a ∧ a ≤ 11 then .ok (.wrRop addr byte)
         else .ok (.wrRsv addr byte))
      else if op = 5 then (if d = 0 then .ok (.rd addr) else .error .nonZeroOperand)
      else .error .reservedOp

/-- R84, last sentences: every word is exactly one row's or a refusal, as spec/opcode_table.json's match and mask say. -/
def Obligations.EveryWordHasOneTableRow : Prop :=
  ∀ w : StimWord,
    (∀ i, decode w = .ok i → opcodeTable.filter (fun r => r.covers w) = [i.row])
    ∧ (∀ r, decode w = .error r → opcodeTable.filter (fun r => r.covers w) = [])

/-- R89: an assembled line is the word of the stimulus it names; an operand out of range is an assembly error. -/
def Obligations.AssemblerForms : Prop :=
  assemble .reset = some (encode .reset) ∧ assemble .tick = some (encode .tick) ∧ assemble .pwmb = some (encode .pwmb)
  ∧ (∀ n, assemble (.scan n) = if n ≤ 65535 then some (encode (.scan (BitVec.ofNat 16 n))) else none)
  ∧ (∀ r b, assemble (.wr r b) =
      if operandAddr r ≤ 15 ∧ b ≤ 255 then
        some (encode (decodeWrite (BitVec.ofNat 4 (operandAddr r)) (BitVec.ofNat 8 b))) else none)
  ∧ (∀ r, assemble (.rd r) =
      if operandAddr r ≤ 15 then some (encode (.rd (BitVec.ofNat 4 (operandAddr r)))) else none)

/-- Words written out from spec/95_test_vectors.md L2-E, P1 and P2, one for each family of the table. -/
def Obligations.SampleWordsDecode : Prop :=
  decode 0x00000000#32 = .ok .reset ∧ decode 0x10000000#32 = .ok .tick
  ∧ decode 0x2000FFFF#32 = .ok (.scan 65535#16) ∧ decode 0x30000000#32 = .ok .pwmb
  ∧ decode 0x40000003#32 = .ok (.wrCtrl 0x03#8) ∧ decode 0x4B000012#32 = .ok (.wrRop 0xB#4 0x12#8)
  ∧ decode 0x52000000#32 = .ok (.rd 0x2#4)

/-! ### Steps and stops -/

/-- A step executes the stimulus a word spells (R84, R18), in a marked machine as in any (R190). That the words come as a pending
list held in the state, and that the step takes the oldest and leaves the rest, is the model's choice (log entry 3). -/
def Obligations.StepRunsDecoded : Prop :=
  ∀ (s : State) (w : StimWord) (rest : List StimWord) (i : Instr),
    s.config.valid = true → s.stimuli = w :: rest → decode w = .ok i →
    WellFormed i = true ∧ step s = exec i { s with stimuli := rest }

/-- R86: which words are refused, that the step is not taken and the reason is recorded, and that the mark stays for the whole run,
every step, refused word and RESET of it included. That the answer carries the marked state, with the word taken from the pending
list, and that the reasons form a list is the model's choice (log entries 3 and 5). -/
def Obligations.MalformedWordIsRefusedForGood : Prop :=
  (∀ w : StimWord, (∃ r, decode w = .error r) ↔
    (fieldRsv w ≠ 0#8 ∨ 6 ≤ (fieldOp w).toNat
      ∨ ((fieldOp w).toNat ≤ 3 ∧ fieldAddr w ≠ 0#4)
      ∨ ((fieldOp w).toNat ≠ 2 ∧ (fieldOp w).toNat ≠ 4 ∧ fieldData w ≠ 0#16)
      ∨ ((fieldOp w).toNat = 4 ∧ fieldDataHigh w ≠ 0#8)))
  ∧ (∀ (s : State) (w : StimWord) (rest : List StimWord) (r : RefusalReason),
      s.config.valid = true → s.stimuli = w :: rest → decode w = .error r →
      step s = .refused (.malformed r { s with stimuli := rest, refusals := s.refusals ++ [r] }))
  ∧ (∀ (s t : State) (k : Nat), runWords k s = .next t →
      (∃ later, t.refusals = s.refusals ++ later) ∧ (s.marked = true → t.marked = true))

/-- R14: a configuration with CAL_DEN = 0 or CAL_NUM > CAL_DEN is refused, whatever the stimulus; the default 1/5 is in range. -/
def Obligations.ConfigurationOutOfRangeIsRefused : Prop :=
  (∀ s : State, (s.config.calDen = 0 ∨ s.config.calDen < s.config.calNum) → step s = .refused .configOutOfRange)
  ∧ State.reset.config.calNum = 1 ∧ State.reset.config.calDen = 5 ∧ State.reset.config.valid = true

/-- The model's choice (log entry 3): with no stimulus there is no step. -/
def Obligations.NoStimulusNoStep : Prop :=
  ∀ s : State, s.config.valid = true → s.stimuli = [] → step s = .fault .noStimulus

/-! ### Reset -/

/-- R190: every register, and only the event `reset`; TONE, the parameters, the events before it and the refusal mark stay. -/
def Obligations.ResetResult : Prop :=
  ∀ s : State, exec .reset s = .next { s with
    selch := 0
    sndch := none
    idleCnt := 0#8
    thresh := 0#16
    baseline := 0#16
    run := false
    phase := .ready
    tickPend := false
    tickLost := false
    pwmEn := false
    pwmPeriod := 0#16
    pwmDuty := 0#16
    indicator := false
    outTrace := s.outTrace ++ [.reset] }

/-- R250: the table, with its host-visible bytes, after RESET from any state and in the state the machine starts from; TONE is
the configuration's. -/
def Obligations.StateAfterReset : Prop :=
  (∀ s : State, ∃ t, exec .reset s = .next t ∧ AfterReset t ∧ t.tone = s.tone) ∧ AfterReset State.reset

/-! ### TICK -/

/-- R170, R174, R175. -/
def Obligations.TickResult : Prop :=
  ∀ s : State, exec .tick s = .next
    (if s.run = false then s
     else if s.tickPend = true then { s with tickLost := true }
     else { s with tickPend := true })

/-! ### SCAN -/

/-- R106: SCAN is stuck exactly outside RUN = 1, PHASE = READY, TICKPEND = 1, and which stimulus lifts each cause. -/
def Obligations.ScanStuckExactly : Prop :=
  (∀ (s : State) (count : Half),
    (exec (.scan count) s = .fault .scanStuck ↔ ¬ (s.run = true ∧ s.phase = .ready ∧ s.tickPend = true))
    ∧ ((s.run = true ∧ s.phase = .ready ∧ s.tickPend = true) → ∃ t, exec (.scan count) s = .next t))
  ∧ (∀ (s : State) (b : Byte), s.config.valid = true → b.getLsbD 0 = true → ∃ t, exec (.wrCtrl b) s = .next t ∧ t.run = true)
  ∧ (∀ s : State, s.run = true → ∃ t, exec .tick s = .next t ∧ t.tickPend = true)
  ∧ (∀ s : State, ∃ t, exec .pwmb s = .next t ∧ t.phase = .ready)

/-- R150 and R122 (with R101's comparison): a touch on a channel that is not the recorded one starts its tone. -/
def Obligations.ScanTouchStartsTone : Prop :=
  ∀ (s : State) (count : Half),
    s.run = true → s.phase = .ready → s.tickPend = true → count.toNat < s.thresh.toNat → s.sndch ≠ some s.selch →
    exec (.scan count) s = .next { s with
      sndch := some (if s.config.ch1Quirk = true ∧ s.selch = 1 then 0 else s.selch)
      indicator := true
      pwmEn := false
      pwmPeriod := s.tone[s.selch].period
      pwmDuty := s.tone[s.selch].duty
      phase := .wait
      outTrace := s.outTrace ++
        [.indicator true, .pwmEn false, .period s.tone[s.selch].period, .duty s.tone[s.selch].duty] }

/-- R120's other branch, with R171: a touch on the recorded channel clears IDLECNT, writes no tone register, and ends the tick. -/
def Obligations.ScanTouchHoldsTone : Prop :=
  ∀ (s : State) (count : Half),
    s.run = true → s.phase = .ready → s.tickPend = true → count.toNat < s.thresh.toNat → s.sndch = some s.selch →
    exec (.scan count) s = .next { s with
      idleCnt := 0#8
      selch := ⟨(s.selch.val + 1) % 7, Nat.mod_lt _ (Nat.succ_pos 6)⟩
      tickPend := false
      outTrace := s.outTrace ++ [.chsel ⟨(s.selch.val + 1) % 7, Nat.mod_lt _ (Nat.succ_pos 6)⟩, .cntClear] }

/-- R121 and R152, with R171: a no-touch tick counts modulo 256 whatever sounds, and at 13 stops the tone and clears the count;
the tick ends either way. -/
def Obligations.ScanNoTouchCounts : Prop :=
  ∀ (s : State) (count : Half),
    s.run = true → s.phase = .ready → s.tickPend = true → s.thresh.toNat ≤ count.toNat →
    exec (.scan count) s = .next
      (let following : Channel := ⟨(s.selch.val + 1) % 7, Nat.mod_lt _ (Nat.succ_pos 6)⟩
       if (s.idleCnt.toNat + 1) % 256 = 13 then
        { s with
          idleCnt := 0#8
          indicator := false
          pwmEn := false
          sndch := none
          selch := following
          tickPend := false
          outTrace := s.outTrace ++ [.indicator false, .pwmEn false, .chsel following, .cntClear] }
       else
        { s with
          idleCnt := BitVec.ofNat 8 ((s.idleCnt.toNat + 1) % 256)
          selch := following
          tickPend := false
          outTrace := s.outTrace ++ [.chsel following, .cntClear] })

/-- R173, R229: a tick is served by one SCAN: until another stimulus comes, a second SCAN is stuck. -/
def Obligations.NoScanWithoutNewTick : Prop :=
  ∀ (s t : State) (count count' : Half), exec (.scan count) s = .next t → exec (.scan count') t = .fault .scanStuck

/-- R254 (with R101): with THRESH = 0 and no note sounding, no scan ever starts one. -/
def Obligations.ZeroThresholdNeverSounds : Prop :=
  ∀ (s t : State) (i : Instr), s.run = true → s.thresh = 0#16 → s.sndch = none → s.phase = .ready →
    exec i s = .next t → i ≠ .reset →
    t.run = true ∧ t.thresh = 0#16 ∧ t.sndch = none ∧ t.phase = .ready ∧ (s.pwmEn = false → t.pwmEn = false)

/-! ### PWMB -/

/-- R151 (with R171's Finish): its pseudocode in every state; and, where the invariant of R42 holds, that PWMB has no effect when
RUN = 0 (R42 item 5: PHASE is then READY). -/
def Obligations.PwmBoundaryResult : Prop :=
  (∀ s : State, exec .pwmb s = .next
    (if s.phase = .wait then
      { s with
        pwmEn := true
        idleCnt := 0#8
        phase := .ready
        selch := ⟨(s.selch.val + 1) % 7, Nat.mod_lt _ (Nat.succ_pos 6)⟩
        tickPend := false
        outTrace := s.outTrace ++
          [.pwmEn true, .chsel ⟨(s.selch.val + 1) % 7, Nat.mod_lt _ (Nat.succ_pos 6)⟩, .cntClear] }
     else s))
  ∧ (∀ s : State, StateInv s → s.run = false → exec .pwmb s = .next s)

/-! ### Host writes and reads -/

/-- R192: CAL first, then RUN, and nothing once RUN = 1; every other field is unchanged. -/
def Obligations.WriteCtrlResult : Prop :=
  ∀ (s : State) (b : Byte), 0 < s.config.calDen → s.config.calNum ≤ s.config.calDen →
    exec (.wrCtrl b) s = .next
      (if s.run = true then s
       else { s with
         thresh := if b.toNat / 2 % 2 = 1 then calThreshold s.config s.baseline else s.thresh
         run := decide (b.toNat % 2 = 1) })

/-- R193: the exact formula, its bounds, the default fraction, and that no rounding tie arises at it. -/
def Obligations.CalibrationFormula : Prop :=
  (∀ (c : Config) (b : Half), 0 < c.calDen → c.calNum ≤ c.calDen →
    (2 * b.toNat * c.calNum + c.calDen) / (2 * c.calDen) ≤ b.toNat
    ∧ (calThreshold c b).toNat = b.toNat - (2 * b.toNat * c.calNum + c.calDen) / (2 * c.calDen))
  ∧ (∀ (c : Config) (b : Half), c.calNum = 1 → c.calDen = 5 →
    (calThreshold c b).toNat = b.toNat - (b.toNat + 2) / 5 ∧ 2 * b.toNat % 10 ≠ 5)

/-- R194. -/
def Obligations.WriteStatusResult : Prop :=
  ∀ (s : State) (b : Byte), exec (.wrStatus b) s = .next
    { s with tickLost := if b.toNat / 8 % 2 = 1 then false else s.tickLost }

/-- R195 and R196: the byte written replaces its half of THRESH while RUN = 0, and the write is ignored while RUN = 1. -/
def Obligations.WriteThresholdResult : Prop :=
  ∀ (s : State) (b : Byte),
    exec (.wrThrl b) s = .next
      { s with thresh := if s.run = true then s.thresh else BitVec.ofNat 16 (s.thresh.toNat / 256 * 256 + b.toNat) }
    ∧ exec (.wrThrh b) s = .next
      { s with thresh := if s.run = true then s.thresh else BitVec.ofNat 16 (b.toNat * 256 + s.thresh.toNat % 256) }

/-- R197 and R198: the byte written replaces its half of BASELINE in any state. -/
def Obligations.WriteBaselineResult : Prop :=
  ∀ (s : State) (b : Byte),
    exec (.wrBasel b) s = .next { s with baseline := BitVec.ofNat 16 (s.baseline.toNat / 256 * 256 + b.toNat) }
    ∧ exec (.wrBaseh b) s = .next { s with baseline := BitVec.ofNat 16 (b.toNat * 256 + s.baseline.toNat % 256) }

/-- R199, R200, R201: writes to read-only and reserved addresses have no effect. -/
def Obligations.ReadOnlyWritesIgnored : Prop :=
  ∀ (s : State) (a : HostAddr) (b : Byte),
    exec (.wrRos a b) s = .next s ∧ exec (.wrRop a b) s = .next s ∧ exec (.wrRsv a b) s = .next s

/-- R202: the byte read at each address, and that no register changes and no event is emitted; that the byte is recorded in
`hostReads` is the model's choice (log entry 6). -/
def Obligations.ReadResult : Prop :=
  ∀ (s : State) (a : HostAddr), exec (.rd a) s = .next
    { s with hostReads := s.hostReads ++ [⟨a,
      if a = 0x0#4 then BitVec.ofNat 8 s.run.toNat
      else if a = 0x1#4 then BitVec.ofNat 8
        (32 * s.indicator.toNat + 16 * s.pwmEn.toNat + 8 * s.tickLost.toNat + 4 * s.tickPend.toNat
          + 2 * (if s.phase = .wait then 1 else 0) + (if s.sndch ≠ none then 1 else 0))
      else if a = 0x2#4 then BitVec.ofNat 8 (16 * (match s.sndch with | none => 7 | some c => c.val) + s.selch.val)
      else if a = 0x3#4 then s.idleCnt
      else if a = 0x4#4 then BitVec.ofNat 8 (s.thresh.toNat % 256)
      else if a = 0x5#4 then BitVec.ofNat 8 (s.thresh.toNat / 256)
      else if a = 0x6#4 then BitVec.ofNat 8 (s.baseline.toNat % 256)
      else if a = 0x7#4 then BitVec.ofNat 8 (s.baseline.toNat / 256)
      else if a = 0x8#4 then BitVec.ofNat 8 (s.pwmPeriod.toNat % 256)
      else if a = 0x9#4 then BitVec.ofNat 8 (s.pwmPeriod.toNat / 256)
      else if a = 0xA#4 then BitVec.ofNat 8 (s.pwmDuty.toNat % 256)
      else if a = 0xB#4 then BitVec.ofNat 8 (s.pwmDuty.toNat / 256)
      else 0x00#8⟩] }

/-- R67: two reads of one address with no step between them answer the same byte, and change no host-visible byte. -/
def Obligations.ReadsAreIdempotent : Prop :=
  ∀ (s : State) (a : HostAddr), ∃ t u : State, exec (.rd a) s = .next t ∧ exec (.rd a) t = .next u
    ∧ (∃ v, t.hostReads = s.hostReads ++ [⟨a, v⟩] ∧ u.hostReads = s.hostReads ++ [⟨a, v⟩, ⟨a, v⟩])
    ∧ ∀ a', hostRead u a' = hostRead s a'

/-- R66: a start that falls between the reads of PERL and PERH makes the host combine the old low byte with the new high byte;
R263: BUSY shows it. The host's record of the two bytes is the model's choice (log entry 6). -/
def Obligations.TornPeriodRead : Prop :=
  ∀ (s : State) (count : Half),
    s.run = true → s.phase = .ready → s.tickPend = true → count.toNat < s.thresh.toNat → s.sndch ≠ some s.selch →
    ∃ t u v : State, exec (.rd 0x8#4) s = .next t ∧ exec (.scan count) t = .next u ∧ exec (.rd 0x9#4) u = .next v
      ∧ v.hostReads = s.hostReads ++ [⟨0x8#4, BitVec.ofNat 8 (s.pwmPeriod.toNat % 256)⟩,
          ⟨0x9#4, BitVec.ofNat 8 (s.tone[s.selch].period.toNat / 256)⟩]
      ∧ (hostRead v 0x1#4).getLsbD 1 = true

/-- R83 and R62: a 16-bit register is {byte at addr + 1, byte at addr}. -/
def Obligations.SixteenBitRegistersLittleEndian : Prop :=
  ∀ s : State,
    (hostRead s 0x5#4).toNat * 256 + (hostRead s 0x4#4).toNat = s.thresh.toNat
    ∧ (hostRead s 0x7#4).toNat * 256 + (hostRead s 0x6#4).toNat = s.baseline.toNat
    ∧ (hostRead s 0x9#4).toNat * 256 + (hostRead s 0x8#4).toNat = s.pwmPeriod.toNat
    ∧ (hostRead s 0xB#4).toNat * 256 + (hostRead s 0xA#4).toNat = s.pwmDuty.toNat

/-- R191: every host write, at any address, writes at most THRESH, BASELINE, RUN and TICKLOST: no event, no scan state. -/
def Obligations.HostWriteFrame : Prop :=
  ∀ (s t : State) (a : HostAddr) (b : Byte), exec (decodeWrite a b) s = .next t →
    t = { s with thresh := t.thresh, baseline := t.baseline, run := t.run, tickLost := t.tickLost }

/-- R61: the host-visible bytes a write may change: its own address, and THRESH's two bytes for a write of CTRL; a byte stored
in BASELINE, or in THRESH while RUN = 0, reads back. -/
def Obligations.HostWriteChangesOwnByte : Prop :=
  ∀ (s t : State) (a : HostAddr) (b : Byte), exec (decodeWrite a b) s = .next t →
    (∀ a', a' ≠ a → ¬ (a = 0x0#4 ∧ (a' = 0x4#4 ∨ a' = 0x5#4)) → hostRead t a' = hostRead s a')
    ∧ ((a = 0x6#4 ∨ a = 0x7#4 ∨ (s.run = false ∧ (a = 0x4#4 ∨ a = 0x5#4))) → hostRead t a = b)

/-! ### The whole machine -/

/-- R74, R39, R12: no stimulus changes the Tone Table or a parameter; R86, R190: nor the refusal mark and its reasons. That a
stimulus leaves the pending list as it is is the model's choice (log entry 3). -/
def Obligations.RomAndParametersNeverChange : Prop :=
  ∀ (i : Instr) (s t : State), exec i s = .next t →
    t.tone = s.tone ∧ t.config = s.config ∧ t.stimuli = s.stimuli ∧ t.refusals = s.refusals

/-- R43: OUTTRACE only grows, and nothing the TSC does reads it. -/
def Obligations.OutputTraceIsWriteOnly : Prop :=
  ∀ (i : Instr) (s t : State), exec i s = .next t →
    ∃ events, t.outTrace = s.outTrace ++ events
      ∧ ∀ trace, exec i { s with outTrace := trace } = .next { t with outTrace := trace ++ events }

/-- R28, R255: once RUN = 1, only RESET changes RUN or THRESH. -/
def Obligations.RunAndThresholdFixedUntilReset : Prop :=
  ∀ (i : Instr) (s t : State), s.run = true → exec i s = .next t → i ≠ .reset → t.run = true ∧ t.thresh = s.thresh

/-- R22, R23, R25, R265: only SCAN, PWMB and RESET write SELCH, SNDCH, IDLECNT, PHASE or an output register, and every other
stimulus emits no event. -/
def Obligations.OnlyTheSequencerWritesScanState : Prop :=
  ∀ (i : Instr) (s t : State), exec i s = .next t → i ≠ .reset → i ≠ .pwmb → (∀ count, i ≠ .scan count) →
    t = { s with thresh := t.thresh, baseline := t.baseline, run := t.run, tickPend := t.tickPend,
                 tickLost := t.tickLost, hostReads := t.hostReads }

/-- R31: TICKLOST is set only by a TICK that finds a tick pending, and cleared only by WR.STATUS with bit 3 or by RESET. -/
def Obligations.TickLostIsSticky : Prop :=
  ∀ (i : Instr) (s t : State), exec i s = .next t →
    (s.tickLost = false → t.tickLost = true → i = .tick ∧ s.run = true ∧ s.tickPend = true)
    ∧ (s.tickLost = true → t.tickLost = false → i = .reset ∨ ∃ b, i = .wrStatus b ∧ b.getLsbD 3 = true)

/-- R102, R105: SELCH moves only by one step of the round robin, when a tick ends (or to 0 by RESET), and every end of a tick
moves it; with the chsel and cntClear events, in that order, last in the trace. -/
def Obligations.OneAdvancePerProcessedTick : Prop :=
  ∀ (i : Instr) (s t : State), exec i s = .next t → i ≠ .reset →
    (t.selch = s.selch ∧ (s.tickPend = true → t.tickPend = true))
    ∨ (t.selch = s.selch + 1 ∧ t.tickPend = false ∧ ∃ events, t.outTrace = s.outTrace ++ events ++ [.chsel t.selch, .cntClear])

/-- R157: only PWMB or RESET lifts WAIT; in it SCAN is stuck and each TICK is lost. -/
def Obligations.WaitIsAHold : Prop :=
  ∀ s : State, StateInv s → s.phase = .wait →
    (∀ i t, exec i s = .next t → i ≠ .pwmb → i ≠ .reset → t.phase = .wait ∧ t.pwmEn = false)
    ∧ (∀ count, exec (.scan count) s = .fault .scanStuck)
    ∧ exec .tick s = .next { s with tickLost := true }

/-- R153, last part: an event pwmEn(1) is emitted by a PWMB that ends a WAIT and by nothing else; PWM_PERIOD and PWM_DUTY are
written only by a step that leaves PWM_EN = 0. -/
def Obligations.PwmEnabledOnlyAtBoundary : Prop :=
  ∀ (i : Instr) (s t : State) (events : List OutEvent), exec i s = .next t → t.outTrace = s.outTrace ++ events →
    (OutEvent.pwmEn true ∈ events → i = .pwmb ∧ s.phase = .wait)
    ∧ (t.pwmPeriod ≠ s.pwmPeriod ∨ t.pwmDuty ≠ s.pwmDuty → t.pwmEn = false)

/-- R226's two cases: the order of TICK and PWMB in WAIT, and of WR CTRL and TICK before RUN, decides what the tick does. -/
def Obligations.SimultaneousEventsByOrder : Prop :=
  (∀ s : State, StateInv s → s.phase = .wait →
    (∃ t u, exec .tick s = .next t ∧ exec .pwmb t = .next u ∧ u.tickLost = true ∧ u.tickPend = false)
    ∧ (∃ t u, exec .pwmb s = .next t ∧ exec .tick t = .next u ∧ u.tickLost = s.tickLost ∧ u.tickPend = true))
  ∧ (∀ s : State, StateInv s → s.run = false →
    (∃ t u, exec (.wrCtrl 0x01#8) s = .next t ∧ exec .tick t = .next u ∧ u.run = true ∧ u.tickPend = true)
    ∧ (∃ t u, exec .tick s = .next t ∧ exec (.wrCtrl 0x01#8) t = .next u ∧ u.run = true ∧ u.tickPend = false))

/-- R27, R197: BASELINE has no effect on TICK, SCAN and PWMB, nor on a write of CTRL once RUN = 1. -/
def Obligations.BaselineDoesNotReachTheScan : Prop :=
  ∀ (i : Instr) (s t : State) (v : Half),
    (i = .tick ∨ i = .pwmb ∨ (∃ count, i = .scan count) ∨ (s.run = true ∧ ∃ b, i = .wrCtrl b)) →
    exec i s = .next t → exec i { s with baseline := v } = .next { t with baseline := v }

/-- R131 items 1 to 3 and R132, under CH1_QUIRK: a start on channel 1 records 0 and programs TONE[1]; a held channel 1 restarts
on every scan; a touch on channel 0 then keeps TONE[1] and only clears IDLECNT. -/
def Obligations.ChannelOneQuirk : Prop :=
  ∀ (s : State) (count : Half),
    s.config.ch1Quirk = true → s.run = true → s.phase = .ready → s.tickPend = true → count.toNat < s.thresh.toNat →
    (s.selch = 1 → s.sndch ≠ some 1 → ∃ t, exec (.scan count) s = .next t
      ∧ t.sndch = some 0 ∧ Programmed t 1 ∧ t.phase = .wait ∧ t.pwmEn = false
      ∧ (hostRead t 0x1#4).getLsbD 0 = true ∧ (hostRead t 0x2#4).toNat / 16 = 0)
    ∧ (s.selch = 0 → s.sndch = some 0 → ∃ t, exec (.scan count) s = .next t
      ∧ t.idleCnt = 0#8 ∧ t.sndch = some 0 ∧ t.phase = .ready ∧ t.pwmEn = s.pwmEn
      ∧ t.pwmPeriod = s.pwmPeriod ∧ t.pwmDuty = s.pwmDuty)

/-! ### Invariants and bounded liveness -/

/-- R42: the state after reset satisfies the invariant. -/
def Obligations.ResetMeetsInvariant : Prop := StateInv State.reset ∧ GlitchFree State.reset.outTrace
  ∧ shownOutputs State.reset.outTrace = outputsOf State.reset

/-- R42: every step keeps the invariant, from any state that meets it. -/
def Obligations.StepKeepsInvariant : Prop :=
  ∀ s t : State, StateInv s → step s = .next t → StateInv t

/-- R42, its eight items as the spec lists them, after every step. -/
def Obligations.SpecChecksAfterEveryStep : Prop :=
  ∀ s t : State, StateInv s → step s = .next t → SpecChecks t

/-- R153: every step keeps the trace free of a tone write that no pwmEn(0) guards. -/
def Obligations.StepKeepsGlitchFree : Prop :=
  ∀ s t : State, GlitchFree s.outTrace → step s = .next t → GlitchFree t.outTrace

/-- R37, R33 to R36: the events alone determine every output register, and CPS_CHSEL follows SELCH. -/
def Obligations.TraceShowsOutputs : Prop :=
  ∀ s t : State, shownOutputs s.outTrace = outputsOf s → step s = .next t → shownOutputs t.outTrace = outputsOf t

/-- R129: with CH1_QUIRK = false, a held note goes on through every stimulus but RESET, IDLECNT at most 6, unless a touch on
another channel retargets it; 90_conflicts.md C3. -/
def Obligations.HeldNoteNeverStops : Prop :=
  ∀ (c : Channel) (i : Instr) (s t : State),
    s.config.ch1Quirk = false → Held c s → exec i s = .next t → i ≠ .reset →
    (∀ count, i = .scan count → s.selch = c → count.toNat < s.thresh.toNat) →
    (Held c t ∧ (t.phase = .ready → t.idleCnt.toNat ≤ 6))
    ∨ (∃ c', c' ≠ c ∧ s.selch = c' ∧ t.sndch = some c' ∧ t.phase = .wait
        ∧ ∃ count, i = .scan count ∧ count.toNat < s.thresh.toNat)

/-- R130, with IDLECNT = 0 after the last touch, on channel `c`: twelve no-touch ticks leave the note sounding, with channel
c + 6 next; the thirteenth, on that channel, stops it. -/
def Obligations.StopLatencyThirteenTicks : Prop :=
  ∀ (s : State) (c : Channel) (counts : List Half) (last : Half) (rest : List StimWord),
    Idling s → s.selch = c + 1 → s.idleCnt = 0#8 → counts.length = 12 →
    (∀ count ∈ counts ++ [last], s.thresh.toNat ≤ count.toNat) →
    s.stimuli = counts.flatMap tickScan ++ (tickScan last ++ rest) →
    ∃ t u : State,
      Host.Core.run Sys2Proof.core 24 s = .next t
      ∧ t.sndch = s.sndch ∧ t.pwmEn = s.pwmEn ∧ t.indicator = s.indicator ∧ t.idleCnt = 12#8 ∧ t.selch = c + 6
      ∧ Host.Core.run Sys2Proof.core 26 s = .next u
      ∧ u.sndch = none ∧ u.pwmEn = false ∧ u.indicator = false ∧ u.idleCnt = 0#8
      ∧ u.pwmPeriod = s.pwmPeriod ∧ u.pwmDuty = s.pwmDuty ∧ u.stimuli = rest

/-- R105: over any number of no-touch ticks the scanned channel cycles 0 to 6, one step a tick (R127: whatever sounds). -/
def Obligations.RoundRobinOverTicks : Prop :=
  ∀ (s : State) (counts : List Half) (rest : List StimWord),
    Idling s → (∀ count ∈ counts, s.thresh.toNat ≤ count.toNat) → s.stimuli = counts.flatMap tickScan ++ rest →
    ∃ t : State, Host.Core.run Sys2Proof.core (2 * counts.length) s = .next t
      ∧ t.selch.val = (s.selch.val + counts.length) % 7 ∧ Idling t ∧ t.stimuli = rest

/-- R157, R156: a WAIT ends at the first boundary that the stream delivers: before it only TICKs, WRs and RDs come. -/
def Obligations.WaitEndsAtFirstBoundary : Prop :=
  ∀ (s : State) (before : List Instr) (rest : List StimWord),
    s.config.valid = true → s.phase = .wait →
    (∀ i ∈ before, WellFormed i = true ∧ leavesWait i = true) →
    s.stimuli = before.map encode ++ encode .pwmb :: rest →
    (∃ t, Host.Core.run Sys2Proof.core before.length s = .next t ∧ t.phase = .wait ∧ t.pwmEn = s.pwmEn)
    ∧ (∃ u, Host.Core.run Sys2Proof.core (before.length + 1) s = .next u
      ∧ u.phase = .ready ∧ u.pwmEn = true ∧ u.idleCnt = 0#8 ∧ u.selch = s.selch + 1 ∧ u.tickPend = false
      ∧ u.stimuli = rest)

/-- R234's PWM_RUNS: under it a WAIT ends, if no RESET and no SCAN (which is stuck in it) is presented meanwhile. -/
def Obligations.WaitEndsUnderPwmRuns : Prop :=
  ∀ (s : State) (stream : Nat → StimWord),
    s.config.valid = true → s.phase = .wait → PwmRuns stream →
    (∀ n, ∃ i, decode (stream n) = .ok i ∧ (leavesWait i = true ∨ i = .pwmb)) →
    ∃ k t, Host.Core.run Sys2Proof.core k { s with stimuli := (List.range k).map stream } = .next t
      ∧ t.phase = .ready ∧ t.pwmEn = true

/-! ### Liveness under R234, and marked runs -/

/-- R234, R105: in an environment that is fair to SCAN, in which ticks recur while RUN = 1 and PWM_RUNS holds, every channel is scanned
again and again. -/
def Obligations.EveryChannelIsScannedAgain : Prop :=
  ∀ (stream : Nat → StimWord) (states : Nat → State) (n : Nat), ScanningFrom stream states n →
    ∀ c : Channel, ∃ m count, n ≤ m ∧ Spells stream m (.scan count) ∧ (states m).selch = c

/-- R234, R130: "the tone stops" under these assumptions: once no count is a touch any more, SNDCH becomes NONE with the outputs off, and
stays so. -/
def Obligations.ReleasedToneStops : Prop :=
  ∀ (stream : Nat → StimWord) (states : Nat → State) (n : Nat), ScanningFrom stream states n →
    (∀ m count, n ≤ m → Spells stream m (.scan count) → (states n).thresh.toNat ≤ count.toNat) →
    ∃ m, n ≤ m ∧ ∀ k, m ≤ k → (states k).sndch = none ∧ (states k).pwmEn = false ∧ (states k).indicator = false

/-- R190 in a marked run: a RESET that follows a refused word resets every register, and the mark is not cleared. That the run goes on
from the marked state is the model's reading of R190 and R221 (log entry 5). -/
def Obligations.ResetAfterRefusedWord : Prop :=
  ∀ (s : State) (w : StimWord) (rest : List StimWord) (r : RefusalReason),
    s.config.valid = true → s.stimuli = w :: encode .reset :: rest → decode w = .error r →
    ∃ t, runWords 2 s = .next t ∧ AfterReset t ∧ t.outTrace = s.outTrace ++ [.reset]
      ∧ t.marked = true ∧ t.refusals = s.refusals ++ [r] ∧ t.stimuli = rest
end

