-- ==== Sys2Proof/Laws/Decode.lean ====
section
/-! SUPPORT. The fields of a word put together from its fields, bit by bit and whole. -/

namespace Sys2Proof

theorem wordOf_getLsbD (op : BitVec 4) (addr : HostAddr) (data : Half) (k : Nat) :
    (wordOf op addr data).getLsbD k =
      if k < 16 then data.getLsbD k
      else if k < 24 then false
      else if k < 28 then addr.getLsbD (k - 24)
      else op.getLsbD (k - 28) := by
  refine (BitVec.getLsbD_append (x := op ++ addr ++ 0#8) (y := data) (i := k)).trans ?_
  rw [BitVec.getLsbD_append, BitVec.getLsbD_append]
  simp only [BitVec.getLsbD_zero]
  split_ifs <;> first | rfl | omega

@[simp] theorem fieldOp_wordOf (op : BitVec 4) (addr : HostAddr) (data : Half) : fieldOp (wordOf op addr data) = op := by
  ext k hk
  rw [← BitVec.getLsbD_eq_getElem, fieldOp, BitVec.getLsbD_extractLsb', wordOf_getLsbD]
  simp [hk, show ¬ 28 + k < 16 by omega, show ¬ 28 + k < 24 by omega]

@[simp] theorem fieldAddr_wordOf (op : BitVec 4) (addr : HostAddr) (data : Half) :
    fieldAddr (wordOf op addr data) = addr := by
  ext k hk
  rw [← BitVec.getLsbD_eq_getElem, fieldAddr, BitVec.getLsbD_extractLsb', wordOf_getLsbD]
  simp [hk, show 24 + k < 28 by omega, show ¬ 24 + k < 16 by omega]

@[simp] theorem fieldRsv_wordOf (op : BitVec 4) (addr : HostAddr) (data : Half) : fieldRsv (wordOf op addr data) = 0#8 := by
  ext k hk
  rw [← BitVec.getLsbD_eq_getElem, fieldRsv, BitVec.getLsbD_extractLsb', wordOf_getLsbD]
  simp [hk, show 16 + k < 24 by omega]

@[simp] theorem fieldData_wordOf (op : BitVec 4) (addr : HostAddr) (data : Half) :
    fieldData (wordOf op addr data) = data := by
  ext k hk
  rw [← BitVec.getLsbD_eq_getElem, fieldData, BitVec.getLsbD_extractLsb', wordOf_getLsbD]
  simp [hk]

theorem zeroHigh_getLsbD (byte : Byte) (k : Nat) :
    (0#8 ++ byte : Half).getLsbD k = if k < 8 then byte.getLsbD k else false := by
  refine (BitVec.getLsbD_append (x := 0#8) (y := byte) (i := k)).trans ?_
  simp

@[simp] theorem fieldByte_writeWord (addr : HostAddr) (byte : Byte) : fieldByte (writeWord addr byte) = byte := by
  ext k hk
  rw [← BitVec.getLsbD_eq_getElem, fieldByte, BitVec.getLsbD_extractLsb', writeWord, wordOf_getLsbD, if_pos (by omega),
    zeroHigh_getLsbD]
  simp [hk]

@[simp] theorem fieldDataHigh_writeWord (addr : HostAddr) (byte : Byte) : fieldDataHigh (writeWord addr byte) = 0#8 := by
  ext k hk
  rw [← BitVec.getLsbD_eq_getElem, fieldDataHigh, BitVec.getLsbD_extractLsb', writeWord, wordOf_getLsbD,
    if_pos (by omega), zeroHigh_getLsbD]
  simp

/-- A WR's word decodes to the row its address selects. -/
theorem decode_writeWord (addr : HostAddr) (byte : Byte) : decode (writeWord addr byte) = .ok (decodeWrite addr byte) := by
  have hb := fieldByte_writeWord addr byte
  have hh := fieldDataHigh_writeWord addr byte
  unfold writeWord at *
  simp [decode, hb, hh, acceptIf]

/-- The fields of any word, as numbers. -/
theorem fields_toNat (w : StimWord) :
    (fieldOp w).toNat = w.toNat / 2 ^ 28 ∧ (fieldAddr w).toNat = w.toNat / 2 ^ 24 % 16
      ∧ (fieldRsv w).toNat = w.toNat / 2 ^ 16 % 256 ∧ (fieldData w).toNat = w.toNat % 2 ^ 16
      ∧ (fieldByte w).toNat = w.toNat % 256 ∧ (fieldDataHigh w).toNat = w.toNat % 2 ^ 16 / 256 := by
  have := w.isLt
  simp only [fieldOp, fieldAddr, fieldRsv, fieldData, fieldByte, fieldDataHigh, BitVec.extractLsb'_toNat,
    Nat.shiftRight_eq_div_pow]
  refine ⟨?_, trivial, trivial, ?_, ?_, ?_⟩ <;> omega

/-- A word is given by its fields when its reserved bits are 0. -/
theorem wordOf_fields {w : StimWord} (h : fieldRsv w = 0#8) : wordOf (fieldOp w) (fieldAddr w) (fieldData w) = w := by
  have reserved : ∀ j < 8, w.getLsbD (16 + j) = false := fun j hj => by
    have := congrArg (BitVec.getLsbD · j) h
    simpa [fieldRsv, BitVec.getLsbD_extractLsb', hj] using this
  apply BitVec.eq_of_getLsbD_eq
  intro k hk
  rw [wordOf_getLsbD]
  split_ifs with h1 h2 h3
  · simp [fieldData, h1]
  · rw [← reserved (k - 16) (by omega)]; congr 1; omega
  · simp only [fieldAddr, BitVec.getLsbD_extractLsb', show k - 24 < 4 by omega, decide_true, Bool.true_and]
    congr 1; omega
  · simp only [fieldOp, BitVec.getLsbD_extractLsb', show k - 28 < 4 by omega, decide_true, Bool.true_and]
    congr 1; omega

end Sys2Proof
end

