-- ==== Sys2Proof/Laws/State.lean ====
section
/-! SUPPORT. What each update of the state leaves in each field: one lemma per field per update, so that no proof unfolds one. -/

namespace Sys2Proof.Machine

section emitFields
variable (e : OutEvent) (s : State)

@[simp] theorem emit_selch : (emit e s).selch = s.selch := rfl
@[simp] theorem emit_sndch : (emit e s).sndch = s.sndch := rfl
@[simp] theorem emit_idleCnt : (emit e s).idleCnt = s.idleCnt := rfl
@[simp] theorem emit_thresh : (emit e s).thresh = s.thresh := rfl
@[simp] theorem emit_baseline : (emit e s).baseline = s.baseline := rfl
@[simp] theorem emit_run : (emit e s).run = s.run := rfl
@[simp] theorem emit_tickPend : (emit e s).tickPend = s.tickPend := rfl
@[simp] theorem emit_phase : (emit e s).phase = s.phase := rfl
@[simp] theorem emit_tickLost : (emit e s).tickLost = s.tickLost := rfl
@[simp] theorem emit_pwmEn : (emit e s).pwmEn = s.pwmEn := rfl
@[simp] theorem emit_pwmPeriod : (emit e s).pwmPeriod = s.pwmPeriod := rfl
@[simp] theorem emit_pwmDuty : (emit e s).pwmDuty = s.pwmDuty := rfl
@[simp] theorem emit_indicator : (emit e s).indicator = s.indicator := rfl
@[simp] theorem emit_tone : (emit e s).tone = s.tone := rfl
@[simp] theorem emit_config : (emit e s).config = s.config := rfl
@[simp] theorem emit_outTrace : (emit e s).outTrace = s.outTrace ++ [e] := rfl
@[simp] theorem emit_refusals : (emit e s).refusals = s.refusals := rfl
@[simp] theorem emit_stimuli : (emit e s).stimuli = s.stimuli := rfl
@[simp] theorem emit_hostReads : (emit e s).hostReads = s.hostReads := rfl

end emitFields

section setIndicatorFields
variable (on : Bool) (s : State)

@[simp] theorem setIndicator_selch : (setIndicator on s).selch = s.selch := rfl
@[simp] theorem setIndicator_sndch : (setIndicator on s).sndch = s.sndch := rfl
@[simp] theorem setIndicator_idleCnt : (setIndicator on s).idleCnt = s.idleCnt := rfl
@[simp] theorem setIndicator_thresh : (setIndicator on s).thresh = s.thresh := rfl
@[simp] theorem setIndicator_baseline : (setIndicator on s).baseline = s.baseline := rfl
@[simp] theorem setIndicator_run : (setIndicator on s).run = s.run := rfl
@[simp] theorem setIndicator_tickPend : (setIndicator on s).tickPend = s.tickPend := rfl
@[simp] theorem setIndicator_phase : (setIndicator on s).phase = s.phase := rfl
@[simp] theorem setIndicator_tickLost : (setIndicator on s).tickLost = s.tickLost := rfl
@[simp] theorem setIndicator_pwmEn : (setIndicator on s).pwmEn = s.pwmEn := rfl
@[simp] theorem setIndicator_pwmPeriod : (setIndicator on s).pwmPeriod = s.pwmPeriod := rfl
@[simp] theorem setIndicator_pwmDuty : (setIndicator on s).pwmDuty = s.pwmDuty := rfl
@[simp] theorem setIndicator_indicator : (setIndicator on s).indicator = on := rfl
@[simp] theorem setIndicator_tone : (setIndicator on s).tone = s.tone := rfl
@[simp] theorem setIndicator_config : (setIndicator on s).config = s.config := rfl
@[simp] theorem setIndicator_outTrace : (setIndicator on s).outTrace = s.outTrace ++ [.indicator on] := rfl
@[simp] theorem setIndicator_refusals : (setIndicator on s).refusals = s.refusals := rfl
@[simp] theorem setIndicator_stimuli : (setIndicator on s).stimuli = s.stimuli := rfl
@[simp] theorem setIndicator_hostReads : (setIndicator on s).hostReads = s.hostReads := rfl

end setIndicatorFields

section setPwmEnFields
variable (on : Bool) (s : State)

@[simp] theorem setPwmEn_selch : (setPwmEn on s).selch = s.selch := rfl
@[simp] theorem setPwmEn_sndch : (setPwmEn on s).sndch = s.sndch := rfl
@[simp] theorem setPwmEn_idleCnt : (setPwmEn on s).idleCnt = s.idleCnt := rfl
@[simp] theorem setPwmEn_thresh : (setPwmEn on s).thresh = s.thresh := rfl
@[simp] theorem setPwmEn_baseline : (setPwmEn on s).baseline = s.baseline := rfl
@[simp] theorem setPwmEn_run : (setPwmEn on s).run = s.run := rfl
@[simp] theorem setPwmEn_tickPend : (setPwmEn on s).tickPend = s.tickPend := rfl
@[simp] theorem setPwmEn_phase : (setPwmEn on s).phase = s.phase := rfl
@[simp] theorem setPwmEn_tickLost : (setPwmEn on s).tickLost = s.tickLost := rfl
@[simp] theorem setPwmEn_pwmEn : (setPwmEn on s).pwmEn = on := rfl
@[simp] theorem setPwmEn_pwmPeriod : (setPwmEn on s).pwmPeriod = s.pwmPeriod := rfl
@[simp] theorem setPwmEn_pwmDuty : (setPwmEn on s).pwmDuty = s.pwmDuty := rfl
@[simp] theorem setPwmEn_indicator : (setPwmEn on s).indicator = s.indicator := rfl
@[simp] theorem setPwmEn_tone : (setPwmEn on s).tone = s.tone := rfl
@[simp] theorem setPwmEn_config : (setPwmEn on s).config = s.config := rfl
@[simp] theorem setPwmEn_outTrace : (setPwmEn on s).outTrace = s.outTrace ++ [.pwmEn on] := rfl
@[simp] theorem setPwmEn_refusals : (setPwmEn on s).refusals = s.refusals := rfl
@[simp] theorem setPwmEn_stimuli : (setPwmEn on s).stimuli = s.stimuli := rfl
@[simp] theorem setPwmEn_hostReads : (setPwmEn on s).hostReads = s.hostReads := rfl

end setPwmEnFields

section setPwmPeriodFields
variable (v : Half) (s : State)

@[simp] theorem setPwmPeriod_selch : (setPwmPeriod v s).selch = s.selch := rfl
@[simp] theorem setPwmPeriod_sndch : (setPwmPeriod v s).sndch = s.sndch := rfl
@[simp] theorem setPwmPeriod_idleCnt : (setPwmPeriod v s).idleCnt = s.idleCnt := rfl
@[simp] theorem setPwmPeriod_thresh : (setPwmPeriod v s).thresh = s.thresh := rfl
@[simp] theorem setPwmPeriod_baseline : (setPwmPeriod v s).baseline = s.baseline := rfl
@[simp] theorem setPwmPeriod_run : (setPwmPeriod v s).run = s.run := rfl
@[simp] theorem setPwmPeriod_tickPend : (setPwmPeriod v s).tickPend = s.tickPend := rfl
@[simp] theorem setPwmPeriod_phase : (setPwmPeriod v s).phase = s.phase := rfl
@[simp] theorem setPwmPeriod_tickLost : (setPwmPeriod v s).tickLost = s.tickLost := rfl
@[simp] theorem setPwmPeriod_pwmEn : (setPwmPeriod v s).pwmEn = s.pwmEn := rfl
@[simp] theorem setPwmPeriod_pwmPeriod : (setPwmPeriod v s).pwmPeriod = v := rfl
@[simp] theorem setPwmPeriod_pwmDuty : (setPwmPeriod v s).pwmDuty = s.pwmDuty := rfl
@[simp] theorem setPwmPeriod_indicator : (setPwmPeriod v s).indicator = s.indicator := rfl
@[simp] theorem setPwmPeriod_tone : (setPwmPeriod v s).tone = s.tone := rfl
@[simp] theorem setPwmPeriod_config : (setPwmPeriod v s).config = s.config := rfl
@[simp] theorem setPwmPeriod_outTrace : (setPwmPeriod v s).outTrace = s.outTrace ++ [.period v] := rfl
@[simp] theorem setPwmPeriod_refusals : (setPwmPeriod v s).refusals = s.refusals := rfl
@[simp] theorem setPwmPeriod_stimuli : (setPwmPeriod v s).stimuli = s.stimuli := rfl
@[simp] theorem setPwmPeriod_hostReads : (setPwmPeriod v s).hostReads = s.hostReads := rfl

end setPwmPeriodFields

section setPwmDutyFields
variable (v : Half) (s : State)

@[simp] theorem setPwmDuty_selch : (setPwmDuty v s).selch = s.selch := rfl
@[simp] theorem setPwmDuty_sndch : (setPwmDuty v s).sndch = s.sndch := rfl
@[simp] theorem setPwmDuty_idleCnt : (setPwmDuty v s).idleCnt = s.idleCnt := rfl
@[simp] theorem setPwmDuty_thresh : (setPwmDuty v s).thresh = s.thresh := rfl
@[simp] theorem setPwmDuty_baseline : (setPwmDuty v s).baseline = s.baseline := rfl
@[simp] theorem setPwmDuty_run : (setPwmDuty v s).run = s.run := rfl
@[simp] theorem setPwmDuty_tickPend : (setPwmDuty v s).tickPend = s.tickPend := rfl
@[simp] theorem setPwmDuty_phase : (setPwmDuty v s).phase = s.phase := rfl
@[simp] theorem setPwmDuty_tickLost : (setPwmDuty v s).tickLost = s.tickLost := rfl
@[simp] theorem setPwmDuty_pwmEn : (setPwmDuty v s).pwmEn = s.pwmEn := rfl
@[simp] theorem setPwmDuty_pwmPeriod : (setPwmDuty v s).pwmPeriod = s.pwmPeriod := rfl
@[simp] theorem setPwmDuty_pwmDuty : (setPwmDuty v s).pwmDuty = v := rfl
@[simp] theorem setPwmDuty_indicator : (setPwmDuty v s).indicator = s.indicator := rfl
@[simp] theorem setPwmDuty_tone : (setPwmDuty v s).tone = s.tone := rfl
@[simp] theorem setPwmDuty_config : (setPwmDuty v s).config = s.config := rfl
@[simp] theorem setPwmDuty_outTrace : (setPwmDuty v s).outTrace = s.outTrace ++ [.duty v] := rfl
@[simp] theorem setPwmDuty_refusals : (setPwmDuty v s).refusals = s.refusals := rfl
@[simp] theorem setPwmDuty_stimuli : (setPwmDuty v s).stimuli = s.stimuli := rfl
@[simp] theorem setPwmDuty_hostReads : (setPwmDuty v s).hostReads = s.hostReads := rfl

end setPwmDutyFields

section selectChannelFields
variable (c : Channel) (s : State)

@[simp] theorem selectChannel_selch : (selectChannel c s).selch = c := rfl
@[simp] theorem selectChannel_sndch : (selectChannel c s).sndch = s.sndch := rfl
@[simp] theorem selectChannel_idleCnt : (selectChannel c s).idleCnt = s.idleCnt := rfl
@[simp] theorem selectChannel_thresh : (selectChannel c s).thresh = s.thresh := rfl
@[simp] theorem selectChannel_baseline : (selectChannel c s).baseline = s.baseline := rfl
@[simp] theorem selectChannel_run : (selectChannel c s).run = s.run := rfl
@[simp] theorem selectChannel_tickPend : (selectChannel c s).tickPend = s.tickPend := rfl
@[simp] theorem selectChannel_phase : (selectChannel c s).phase = s.phase := rfl
@[simp] theorem selectChannel_tickLost : (selectChannel c s).tickLost = s.tickLost := rfl
@[simp] theorem selectChannel_pwmEn : (selectChannel c s).pwmEn = s.pwmEn := rfl
@[simp] theorem selectChannel_pwmPeriod : (selectChannel c s).pwmPeriod = s.pwmPeriod := rfl
@[simp] theorem selectChannel_pwmDuty : (selectChannel c s).pwmDuty = s.pwmDuty := rfl
@[simp] theorem selectChannel_indicator : (selectChannel c s).indicator = s.indicator := rfl
@[simp] theorem selectChannel_tone : (selectChannel c s).tone = s.tone := rfl
@[simp] theorem selectChannel_config : (selectChannel c s).config = s.config := rfl
@[simp] theorem selectChannel_outTrace : (selectChannel c s).outTrace = s.outTrace ++ [.chsel c] := rfl
@[simp] theorem selectChannel_refusals : (selectChannel c s).refusals = s.refusals := rfl
@[simp] theorem selectChannel_stimuli : (selectChannel c s).stimuli = s.stimuli := rfl
@[simp] theorem selectChannel_hostReads : (selectChannel c s).hostReads = s.hostReads := rfl

end selectChannelFields

section recordRefusalFields
variable (r : RefusalReason) (s : State)

@[simp] theorem recordRefusal_selch : (recordRefusal r s).selch = s.selch := rfl
@[simp] theorem recordRefusal_sndch : (recordRefusal r s).sndch = s.sndch := rfl
@[simp] theorem recordRefusal_idleCnt : (recordRefusal r s).idleCnt = s.idleCnt := rfl
@[simp] theorem recordRefusal_thresh : (recordRefusal r s).thresh = s.thresh := rfl
@[simp] theorem recordRefusal_baseline : (recordRefusal r s).baseline = s.baseline := rfl
@[simp] theorem recordRefusal_run : (recordRefusal r s).run = s.run := rfl
@[simp] theorem recordRefusal_tickPend : (recordRefusal r s).tickPend = s.tickPend := rfl
@[simp] theorem recordRefusal_phase : (recordRefusal r s).phase = s.phase := rfl
@[simp] theorem recordRefusal_tickLost : (recordRefusal r s).tickLost = s.tickLost := rfl
@[simp] theorem recordRefusal_pwmEn : (recordRefusal r s).pwmEn = s.pwmEn := rfl
@[simp] theorem recordRefusal_pwmPeriod : (recordRefusal r s).pwmPeriod = s.pwmPeriod := rfl
@[simp] theorem recordRefusal_pwmDuty : (recordRefusal r s).pwmDuty = s.pwmDuty := rfl
@[simp] theorem recordRefusal_indicator : (recordRefusal r s).indicator = s.indicator := rfl
@[simp] theorem recordRefusal_tone : (recordRefusal r s).tone = s.tone := rfl
@[simp] theorem recordRefusal_config : (recordRefusal r s).config = s.config := rfl
@[simp] theorem recordRefusal_outTrace : (recordRefusal r s).outTrace = s.outTrace := rfl
@[simp] theorem recordRefusal_refusals : (recordRefusal r s).refusals = s.refusals ++ [r] := rfl
@[simp] theorem recordRefusal_stimuli : (recordRefusal r s).stimuli = s.stimuli := rfl
@[simp] theorem recordRefusal_hostReads : (recordRefusal r s).hostReads = s.hostReads := rfl
@[simp] theorem recordRefusal_marked : (recordRefusal r s).marked = true := by simp [State.marked]

end recordRefusalFields

end Sys2Proof.Machine
end

