-- ==== Sys2Proof/Laws/Ops.lean ====
section
/-! SUPPORT. What each shared operation does, said once: its whole next state, or the cases of its answer. -/

namespace Sys2Proof.Machine

theorem advance_eq (s : State) :
    advance s = { s with selch := s.selch + 1, outTrace := s.outTrace ++ [.chsel (s.selch + 1)] } := rfl

theorem finish_eq (s : State) :
    finish s = { s with
      selch := s.selch + 1, tickPend := false, outTrace := s.outTrace ++ [.chsel (s.selch + 1), .cntClear] } := by
  simp [finish, advance_eq, rearm, emit]

theorem startTone_eq (ch : Channel) (s : State) :
    startTone ch s = { s with
      sndch := some (recordedChannel s.config.ch1Quirk ch), indicator := true, pwmEn := false,
      pwmPeriod := s.tone[ch].period, pwmDuty := s.tone[ch].duty, phase := .wait,
      outTrace := s.outTrace ++
        [.indicator true, .pwmEn false, .period s.tone[ch].period, .duty s.tone[ch].duty] } := by
  simp [startTone, setIndicator, setPwmEn, setPwmPeriod, setPwmDuty, emit]

theorem stopTone_eq (s : State) :
    stopTone s = { s with
      indicator := false, pwmEn := false, sndch := none,
      outTrace := s.outTrace ++ [.indicator false, .pwmEn false] } := by
  simp [stopTone, setIndicator, setPwmEn, emit]

theorem completeStart_eq (s : State) :
    completeStart s = { s with
      pwmEn := true, idleCnt := 0#8, phase := .ready, selch := s.selch + 1, tickPend := false,
      outTrace := s.outTrace ++ [.pwmEn true, .chsel (s.selch + 1), .cntClear] } := by
  simp [completeStart, finish_eq, setPwmEn, emit]

/-- A no-touch tick either counts, or (the count being the last) stops the tone and clears. -/
theorem noteIdle_cases (s : State) :
    (s.idleCnt ≠ 12#8 ∧ noteIdle s = { s with idleCnt := s.idleCnt + 1#8 }) ∨
    (s.idleCnt = 12#8 ∧ noteIdle s = { s with
      idleCnt := 0#8, indicator := false, pwmEn := false, sndch := none,
      outTrace := s.outTrace ++ [.indicator false, .pwmEn false] }) := by
  have last : s.idleCnt + 1#8 = 13#8 ↔ s.idleCnt = 12#8 := by constructor <;> intro h <;> bv_omega
  by_cases h : s.idleCnt = 12#8
  · exact .inr ⟨h, by simp [noteIdle, Config.maxIdleTicks, h, stopTone_eq]⟩
  · exact .inl ⟨h, by simp [noteIdle, Config.maxIdleTicks, last, h]⟩

theorem touched_iff (count thresh : Half) : touched count thresh = true ↔ count < thresh := by
  simp [touched, BitVec.ult, BitVec.lt_def]

theorem scanEnabled_iff (s : State) :
    s.scanEnabled = true ↔ s.run = true ∧ s.phase = .ready ∧ s.tickPend = true := by
  simp [State.scanEnabled, and_assoc]

/-- Everything an answered SCAN does: restart on a touch of a channel that is not recorded, clear IDLECNT on a touch of the
recorded one, or the no-touch branch; all but the first end the tick. -/
theorem execScan_cases {count : Half} {s t : State} (h : execScan count s = .next t) :
    (s.run = true ∧ s.phase = .ready ∧ s.tickPend = true) ∧
    ((count < s.thresh ∧ s.sndch ≠ some s.selch ∧ t = startTone s.selch s) ∨
     (count < s.thresh ∧ s.sndch = some s.selch ∧ t = finish { s with idleCnt := 0#8 }) ∨
     (¬ count < s.thresh ∧ t = finish (noteIdle s))) := by
  have enabled : s.scanEnabled = true := by
    unfold execScan at h
    split at h
    · assumption
    · cases h
  have states := (scanEnabled_iff s).mp enabled
  have result : t = finishIfReady (noteStep count s) := by
    simpa [execScan, enabled] using h.symm
  subst result
  refine ⟨states, ?_⟩
  by_cases touch : count < s.thresh
  · by_cases own : s.sndch = some s.selch
    · exact .inr (.inl ⟨touch, own, by
        simp [noteStep, noteTouch, finishIfReady, (touched_iff _ _).mpr touch, own, states.2.1]⟩)
    · exact .inl ⟨touch, own, by
        simp [noteStep, noteTouch, finishIfReady, (touched_iff _ _).mpr touch, own, startTone_eq]⟩
  · have idle : touched count s.thresh = false := by
      rw [Bool.eq_false_iff, ne_eq, touched_iff]; exact touch
    refine .inr (.inr ⟨touch, ?_⟩)
    rcases noteIdle_cases s with ⟨_, e⟩ | ⟨_, e⟩ <;>
      simp [noteStep, idle, finishIfReady, e, states.2.1]

theorem execPwmb_eq (s : State) :
    execPwmb s = .next (if s.phase = .wait then completeStart s else s) := by
  cases h : s.phase <;> simp [execPwmb, h]

/-- The 16-bit result holds the exact difference: nothing wraps (R193). -/
theorem calThreshold_toNat (c : Config) (b : Half) :
    (calThreshold c b).toNat = b.toNat - (2 * b.toNat * c.calNum + c.calDen) / (2 * c.calDen) := by
  rw [calThreshold, BitVec.toNat_ofNat]
  exact Nat.mod_eq_of_lt (lt_of_le_of_lt (Nat.sub_le _ _) b.isLt)

/-- A state yields a stimulus only when the configuration is in range and the oldest pending word decodes; the rest stays
pending. -/
theorem fetch_cases {s s' : State} {i : Instr} (h : fetch s = .next (i, s')) :
    s.config.valid = true ∧ ∃ w rest, s.stimuli = w :: rest ∧ decode w = .ok i ∧ s' = { s with stimuli := rest } := by
  unfold fetch at h
  split at h
  · split at h
    · cases h
    · split at h
      · cases h
        exact ⟨‹_›, _, _, ‹_›, ‹_›, rfl⟩
      · cases h
  · cases h

/-- The fetch refuses a configuration out of range, or a word that spells no stimulus: then the word is gone and the mark set. -/
theorem fetch_refused {s : State} {r : Refusal} (h : fetch s = .refused r) :
    (s.config.valid = false ∧ r = .configOutOfRange) ∨
    (s.config.valid = true ∧ ∃ w rest reason, s.stimuli = w :: rest ∧ decode w = .error reason
      ∧ r = .malformed reason (recordRefusal reason { s with stimuli := rest })) := by
  unfold fetch at h
  split at h
  · split at h
    · cases h
    · split at h
      · cases h
      · cases h
        exact .inr ⟨‹_›, _, _, _, ‹_›, ‹_›, rfl⟩
  · cases h
    exact .inl ⟨Bool.eq_false_iff.mpr ‹_›, rfl⟩

end Sys2Proof.Machine
end

