-- ==== Sys2Proof/Laws/Exec.lean ====
section
/-! SUPPORT. What a stimulus, and a step, can do, said once: if it answers a next state, then one of the listed cases holds. -/

namespace Sys2Proof.Machine

/-- What an answered SCAN of a state does. -/
def ScanCase (count : Half) (s t : State) : Prop :=
  (count < s.thresh ∧ s.sndch ≠ some s.selch ∧ t = startTone s.selch s)
  ∨ (count < s.thresh ∧ s.sndch = some s.selch ∧ t = finish { s with idleCnt := 0#8 })
  ∨ (¬ count < s.thresh ∧ s.idleCnt ≠ 12#8 ∧ t = finish { s with idleCnt := s.idleCnt + 1#8 })
  ∨ (¬ count < s.thresh ∧ s.idleCnt = 12#8 ∧ t = finish { s with
      idleCnt := 0#8, indicator := false, pwmEn := false, sndch := none,
      outTrace := s.outTrace ++ [.indicator false, .pwmEn false] })

theorem execScan_inv {count : Half} {s t : State} (h : execScan count s = .next t) :
    (s.run = true ∧ s.phase = .ready ∧ s.tickPend = true) ∧ ScanCase count s t := by
  obtain ⟨enabled, start | hold | ⟨idle, rfl⟩⟩ := execScan_cases h
  · exact ⟨enabled, .inl start⟩
  · exact ⟨enabled, .inr (.inl hold)⟩
  · refine ⟨enabled, .inr (.inr ?_)⟩
    rcases noteIdle_cases s with ⟨more, e⟩ | ⟨last, e⟩
    · exact .inl ⟨idle, more, by rw [e]⟩
    · exact .inr ⟨idle, last, by rw [e]⟩

theorem execTick_inv {s t : State} (h : execTick s = .next t) :
    (s.run = false ∧ t = s) ∨ (s.run = true ∧ s.tickPend = true ∧ t = { s with tickLost := true })
      ∨ (s.run = true ∧ s.tickPend = false ∧ t = { s with tickPend := true }) := by
  simp only [execTick, Host.Outcome.next.injEq] at h
  subst h
  cases s.run <;> cases s.tickPend <;> simp

theorem execPwmb_inv {s t : State} (h : execPwmb s = .next t) :
    (s.phase = .wait ∧ t = completeStart s) ∨ (s.phase = .ready ∧ t = s) := by
  simp only [execPwmb_eq, Host.Outcome.next.injEq] at h
  subst h
  cases s.phase <;> simp

theorem execWrCtrl_inv {byte : Byte} {s t : State} (h : execWrCtrl byte s = .next t) :
    (s.run = true ∧ t = s) ∨ (s.run = false ∧ t = { s with
      thresh := if bitOf byte 1 then calThreshold s.config s.baseline else s.thresh, run := bitOf byte 0 }) := by
  unfold execWrCtrl at h
  split at h
  · cases h
    exact .inl ⟨‹_›, rfl⟩
  · rename_i stopped
    have stopped : s.run = false := by simpa using stopped
    split at h
    · cases h
    · cases h
      refine .inr ⟨stopped, ?_⟩
      cases bitOf byte 0 <;> cases bitOf byte 1 <;> (simp [calibrate, stopped]; try rw [← stopped])

/-- What an answered stimulus does to the state; the read-only and reserved writes do nothing. -/
def ExecCase (s t : State) : Instr → Prop
  | .reset => t = emit .reset { State.reset with
      tone := s.tone, config := s.config, outTrace := s.outTrace, refusals := s.refusals, stimuli := s.stimuli,
      hostReads := s.hostReads }
  | .tick => (s.run = false ∧ t = s) ∨ (s.run = true ∧ s.tickPend = true ∧ t = { s with tickLost := true })
      ∨ (s.run = true ∧ s.tickPend = false ∧ t = { s with tickPend := true })
  | .scan count => (s.run = true ∧ s.phase = .ready ∧ s.tickPend = true) ∧ ScanCase count s t
  | .pwmb => (s.phase = .wait ∧ t = completeStart s) ∨ (s.phase = .ready ∧ t = s)
  | .wrCtrl byte => (s.run = true ∧ t = s) ∨ (s.run = false ∧ t = { s with
      thresh := if bitOf byte 1 then calThreshold s.config s.baseline else s.thresh, run := bitOf byte 0 })
  | .wrStatus byte => t = { s with tickLost := if bitOf byte 3 then false else s.tickLost }
  | .wrThrl byte => t = { s with thresh := if s.run then s.thresh else setLowByte s.thresh byte }
  | .wrThrh byte => t = { s with thresh := if s.run then s.thresh else setHighByte s.thresh byte }
  | .wrBasel byte => t = { s with baseline := setLowByte s.baseline byte }
  | .wrBaseh byte => t = { s with baseline := setHighByte s.baseline byte }
  | .wrRos _ _ | .wrRop _ _ | .wrRsv _ _ => t = s
  | .rd addr => t = { s with hostReads := s.hostReads ++ [⟨addr, hostRead s addr⟩] }

theorem exec_inv {i : Instr} {s t : State} (h : exec i s = .next t) : ExecCase s t i := by
  cases i with
  | reset => exact (Host.Outcome.next.inj h).symm
  | tick => exact execTick_inv h
  | scan count => exact execScan_inv h
  | pwmb => exact execPwmb_inv h
  | wrCtrl byte => exact execWrCtrl_inv h
  | wrStatus byte =>
    refine (Host.Outcome.next.inj h).symm.trans ?_
    split_ifs <;> rfl
  | wrThrl byte =>
    refine (Host.Outcome.next.inj h).symm.trans ?_
    split_ifs <;> rfl
  | wrThrh byte =>
    refine (Host.Outcome.next.inj h).symm.trans ?_
    split_ifs <;> rfl
  | wrBasel byte => exact (Host.Outcome.next.inj h).symm
  | wrBaseh byte => exact (Host.Outcome.next.inj h).symm
  | wrRos addr byte => exact (Host.Outcome.next.inj h).symm
  | wrRop addr byte => exact (Host.Outcome.next.inj h).symm
  | wrRsv addr byte => exact (Host.Outcome.next.inj h).symm
  | rd addr => exact (Host.Outcome.next.inj h).symm

/-- An answered step took the oldest pending word of a machine in range and executed the stimulus it spells. -/
theorem step_inv {s t : State} (h : step s = .next t) :
    s.config.valid = true ∧ ∃ i w rest, s.stimuli = w :: rest ∧ decode w = .ok i ∧ exec i { s with stimuli := rest } = .next t := by
  unfold step at h
  split at h
  · obtain ⟨valid, w, rest, pending, spelled, rfl⟩ := fetch_cases ‹_›
    exact ⟨valid, _, w, rest, pending, spelled, h⟩
  · cases h
  · cases h

/-- A stimulus is refused only where WR.CTRL would calibrate by a fraction out of range. -/
theorem exec_refused {i : Instr} {s : State} {r : Refusal} (h : exec i s = .refused r) :
    s.config.valid = false ∧ r = .configOutOfRange := by
  cases i with
  | wrCtrl byte =>
    simp only [exec, execWrCtrl] at h
    split_ifs at h with _ out
    cases h
    exact ⟨by simpa using (Bool.and_eq_true_iff.mp out).2, rfl⟩
  | scan count =>
    simp only [exec, execScan] at h
    split_ifs at h
  | _ => cases h

/-- A step is refused only for a configuration out of range or a word that spells no stimulus. -/
theorem step_refused {s : State} {r : Refusal} (h : step s = .refused r) :
    (s.config.valid = false ∧ r = .configOutOfRange) ∨
    (s.config.valid = true ∧ ∃ w rest reason, s.stimuli = w :: rest ∧ decode w = .error reason
      ∧ r = .malformed reason (recordRefusal reason { s with stimuli := rest })) := by
  unfold step at h
  split at h
  · obtain ⟨valid, w, rest, -, -, rfl⟩ := fetch_cases ‹_›
    have out := (exec_refused h).1
    simp [valid] at out
  · cases h
  · cases h
    exact fetch_refused ‹_›

/-- A run goes on by a step, or from the marked state that a refused word leaves. -/
theorem runStep_inv {s t : State} (h : runStep s = .next t) :
    step s = .next t ∨ ∃ w rest reason, s.stimuli = w :: rest ∧ decode w = .error reason
      ∧ t = recordRefusal reason { s with stimuli := rest } := by
  unfold runStep at h
  split at h
  · rename_i refused
    cases h
    rcases step_refused refused with ⟨-, other⟩ | ⟨-, w, rest, reason, pending, spelled, same⟩
    · cases other
    · cases same
      exact .inr ⟨w, rest, _, pending, spelled, rfl⟩
  · exact .inl h

end Sys2Proof.Machine
end

