-- ==== Sys2Proof/Laws/PerInstr.lean ====
section
/-! SUPPORT. The encoding of every stimulus is a word of its own row of the opcode table, one lemma per constructor. -/

namespace Sys2Proof.Laws.TableRow

/-- A well-formed stimulus is encoded as a word its row covers. -/
def Statement (i : Instr) : Prop := WellFormed i = true → i.row.covers (encode i) = true

/-- Masking a word field by field. -/
theorem wordOf_and (op op' : BitVec 4) (addr addr' : HostAddr) (data data' : Half) :
    wordOf op addr data &&& (op' ++ addr' ++ 0xFF#8 ++ data') = wordOf (op &&& op') (addr &&& addr') (data &&& data') := by
  refine BitVec.and_append.trans ?_
  rw [show (op ++ addr ++ 0#8 &&& op' ++ addr' ++ 0xFF#8 : BitVec (4 + 4 + 8)) = _ from BitVec.and_append,
    show (op ++ addr &&& op' ++ addr' : BitVec (4 + 4)) = _ from BitVec.and_append]
  rfl

/-- A WR masked by a row's mask, which keeps OP, some address bits and DATA[15:8]: the byte is gone. -/
theorem writeWord_and (addr mask : HostAddr) (byte : Byte) :
    writeWord addr byte &&& (0xF#4 ++ mask ++ 0xFF#8 ++ 0xFF00#16) = writeWord (addr &&& mask) 0#8 := by
  have low : (0#8 ++ byte : BitVec (8 + 8)) &&& (0xFF#8 ++ 0#8) = 0#8 ++ 0#8 := by
    rw [BitVec.and_append, BitVec.and_zero]; rfl
  rw [writeWord, wordOf_and]
  exact congrArg (wordOf 0x4#4 (addr &&& mask)) low

/-- A WR is covered by a row when its address, masked, is the row's. -/
theorem covers_writeWord {m : String} {addr mask base : HostAddr} (byte : Byte) (h : addr &&& mask = base) :
    (TableRow.mk m (writeWord base 0#8) (0xF#4 ++ mask ++ 0xFF#8 ++ 0xFF00#16)).covers (writeWord addr byte) = true := by
  subst h
  simp [TableRow.covers, writeWord_and]

theorem reset : Statement .reset := fun _ => by decide
theorem tick : Statement .tick := fun _ => by decide
theorem scan (count : Half) : Statement (.scan count) := fun _ => by
  have := wordOf_and 0x2#4 0xF#4 0#4 0xF#4 count 0#16
  simpa [TableRow.covers, Instr.row, encode, wordOf] using this
theorem pwmb : Statement .pwmb := fun _ => by decide
theorem wrCtrl (byte : Byte) : Statement (.wrCtrl byte) := fun _ => covers_writeWord (mask := 0xF#4) byte rfl
theorem wrStatus (byte : Byte) : Statement (.wrStatus byte) := fun _ => covers_writeWord (mask := 0xF#4) byte rfl
theorem wrRos (addr : HostAddr) (byte : Byte) : Statement (.wrRos addr byte) := fun wf =>
  covers_writeWord (base := 0x2#4) (mask := 0xE#4) byte (by simp only [WellFormed] at wf; revert addr; decide)
theorem wrThrl (byte : Byte) : Statement (.wrThrl byte) := fun _ => covers_writeWord (mask := 0xF#4) byte rfl
theorem wrThrh (byte : Byte) : Statement (.wrThrh byte) := fun _ => covers_writeWord (mask := 0xF#4) byte rfl
theorem wrBasel (byte : Byte) : Statement (.wrBasel byte) := fun _ => covers_writeWord (mask := 0xF#4) byte rfl
theorem wrBaseh (byte : Byte) : Statement (.wrBaseh byte) := fun _ => covers_writeWord (mask := 0xF#4) byte rfl
theorem wrRop (addr : HostAddr) (byte : Byte) : Statement (.wrRop addr byte) := fun wf =>
  covers_writeWord (base := 0x8#4) (mask := 0xC#4) byte (by simp only [WellFormed] at wf; revert addr; decide)
theorem wrRsv (addr : HostAddr) (byte : Byte) : Statement (.wrRsv addr byte) := fun wf =>
  covers_writeWord (base := 0xC#4) (mask := 0xC#4) byte (by simp only [WellFormed] at wf; revert addr; decide)
theorem rd (addr : HostAddr) : Statement (.rd addr) := fun _ => by
  have := wordOf_and 0x5#4 0xF#4 addr 0#4 0#16 0xFFFF#16
  simpa [TableRow.covers, Instr.row, encode, wordOf] using this

end Sys2Proof.Laws.TableRow
end

