-- ==== Sys2Proof/Tests/Slice0.lean ====
section
/-! SUPPORT. The model's own tests: ill-formed terms, words written out from spec/30_encoding.md, one-step vectors of
spec/95_test_vectors.md (its row names stand in the comments), and a witness for every statement with hypotheses. -/

namespace Sys2Proof.Tests

open Sys2Proof Sys2Proof.Machine Sys2Proof.Safety

/-! ### Helpers -/

/-- The illustrative Tone Table of spec/95_test_vectors.md: (200 + 10·c, 100 + 5·c). -/
def bench : ToneTable := #v[⟨200, 100⟩, ⟨210, 105⟩, ⟨220, 110⟩, ⟨230, 115⟩, ⟨240, 120⟩, ⟨250, 125⟩, ⟨260, 130⟩]

/-- Reset, with the vectors' Tone Table, CH1_QUIRK and fraction 1/5. -/
def fresh (quirk : Bool) : State := { State.reset with tone := bench, config := ⟨quirk, 1, 5, 0, 0⟩ }

/-- "Booted" of spec/95_test_vectors.md: THRESH = 800 and RUN = 1. -/
def booted : State := { fresh false with thresh := 800#16, run := true }

/-- Booted with a tick pending. -/
def pending : State := { booted with tickPend := true }

/-- Pending, with channel 4 sounding and channel `sel` next. -/
def sounding (sel : Channel) (idle : Byte) : State :=
  { pending with
    selch := sel, sndch := some 4, idleCnt := idle, pwmEn := true, indicator := true, pwmPeriod := 240#16, pwmDuty := 120#16 }

/-- L2-N1's result: channel 2 is being started. -/
def waiting : State :=
  { pending with
    selch := 2, sndch := some 2, idleCnt := 5#8, indicator := true, pwmPeriod := 220#16, pwmDuty := 110#16, phase := .wait }

/-- The next state of an answer, if it is one. -/
def next? : Answer State → Option State
  | .next s    => some s
  | .fault _   => none
  | .refused _ => none

/-- What a test reads of the next state. -/
def after {α : Type} (f : State → α) (a : Answer State) : Option α := (next? a).map f

/-! ### Well-formedness -/

theorem test_ros_address_out_of_range_is_ill_formed : WellFormed (.wrRos 0x4#4 0#8) = false := by decide
theorem test_rop_address_out_of_range_is_ill_formed :
    WellFormed (.wrRop 0x7#4 0#8) = false ∧ WellFormed (.wrRop 0xC#4 0#8) = false := by decide
theorem test_rsv_address_out_of_range_is_ill_formed : WellFormed (.wrRsv 0xB#4 0#8) = false := by decide

/-! ### Decoding: words written out from R80 to R89 and L2-E -/

theorem test_decode_events :
    decode 0x00000000#32 = .ok .reset ∧ decode 0x10000000#32 = .ok .tick ∧ decode 0x30000000#32 = .ok .pwmb := by decide
theorem test_decode_scan :
    decode 0x2000FFFF#32 = .ok (.scan 65535#16) ∧ decode 0x20000000#32 = .ok (.scan 0#16)
      ∧ decode 0x20000258#32 = .ok (.scan 600#16) := by decide
theorem test_decode_control_writes :
    decode 0x400000FF#32 = .ok (.wrCtrl 0xFF#8) ∧ decode 0x41000008#32 = .ok (.wrStatus 0x08#8) := by decide
theorem test_decode_byte_writes :
    decode 0x44000020#32 = .ok (.wrThrl 0x20#8) ∧ decode 0x45000003#32 = .ok (.wrThrh 0x03#8)
      ∧ decode 0x460000E8#32 = .ok (.wrBasel 0xE8#8) ∧ decode 0x47000003#32 = .ok (.wrBaseh 0x03#8) := by decide
theorem test_decode_ignored_writes :
    decode 0x42000005#32 = .ok (.wrRos 0x2#4 0x05#8) ∧ decode 0x43000005#32 = .ok (.wrRos 0x3#4 0x05#8)
      ∧ decode 0x480000FF#32 = .ok (.wrRop 0x8#4 0xFF#8) ∧ decode 0x4B000012#32 = .ok (.wrRop 0xB#4 0x12#8)
      ∧ decode 0x4C000012#32 = .ok (.wrRsv 0xC#4 0x12#8) ∧ decode 0x4F000012#32 = .ok (.wrRsv 0xF#4 0x12#8) := by decide
theorem test_decode_reads :
    decode 0x50000000#32 = .ok (.rd 0x0#4) ∧ decode 0x52000000#32 = .ok (.rd 0x2#4)
      ∧ decode 0x5F000000#32 = .ok (.rd 0xF#4) := by decide
theorem test_decode_refuses_reserved_op :
    decode 0x60000000#32 = .error .reservedOp ∧ decode 0xF0000000#32 = .error .reservedOp := by decide
theorem test_decode_refuses_operands :
    decode 0x10000001#32 = .error .nonZeroOperand ∧ decode 0x01000000#32 = .error .nonZeroOperand
      ∧ decode 0x21000000#32 = .error .nonZeroOperand ∧ decode 0x30000001#32 = .error .nonZeroOperand
      ∧ decode 0x40000100#32 = .error .nonZeroOperand ∧ decode 0x51000001#32 = .error .nonZeroOperand := by decide
theorem test_decode_refuses_reserved_bits_first :
    decode 0x00010000#32 = .error .reservedBits ∧ decode 0x60010000#32 = .error .reservedBits
      ∧ decode 0x2080FFFF#32 = .error .reservedBits := by decide
theorem test_table_word : decodeTableWord 32 0x2000FFFF = some (.scan 65535#16) ∧ decodeTableWord 32 0x60000000 = none := by
  decide
/-- R89 and R90: TSB 400 of P2. -/
theorem test_expand_tsb : (expand (.tsb 400)).map assemble = [some 0x10000000#32, some 0x20000190#32, some 0x30000000#32] := by
  decide
/-- R90: WR16 THR, 800 of P2. -/
theorem test_expand_wr16 : (expand (.wr16Thr 800#16)).map assemble = [some 0x44000020#32, some 0x45000003#32] := by decide

/-! ### RESET -/

/-- H1 and T3: after RESET in WAIT, CHAN reads 0x70 and STATUS 0; no pwmEn(1) is emitted. -/
theorem test_reset_in_wait :
    after (fun t => (hostRead t 0x2#4, hostRead t 0x1#4, t.outTrace)) (exec .reset waiting) = some (0x70#8, 0x00#8, [.reset]) := by
  decide

/-! ### TICK -/

/-- K1, K2. -/
theorem test_tick_needs_run :
    after (·.tickPend) (exec .tick (fresh false)) = some false ∧ after (·.tickPend) (exec .tick booted) = some true := by decide
/-- K3. -/
theorem test_tick_lost : after (fun t => (t.tickPend, t.tickLost)) (exec .tick pending) = some (true, true) := by decide

/-! ### SCAN -/

/-- S1, S2: the comparison is strict. -/
theorem test_scan_strict :
    after (·.sndch) (exec (.scan 799#16) pending) = some (some 0)
      ∧ after (fun t => (t.sndch, t.idleCnt, t.selch, t.tickPend, t.outTrace)) (exec (.scan 800#16) pending)
        = some (none, 1#8, 1, false, [.chsel 1, .cntClear]) := by decide
/-- N6: the thirteenth no-touch tick stops the note and keeps the period; N5: the twelfth does not. -/
theorem test_scan_stop :
    after (fun t => (t.sndch, t.idleCnt, t.pwmEn, t.pwmPeriod, t.outTrace)) (exec (.scan 1000#16) (sounding 3 12#8))
        = some (none, 0#8, false, 240#16, [.indicator false, .pwmEn false, .chsel 4, .cntClear])
      ∧ after (fun t => (t.sndch, t.idleCnt, t.pwmEn)) (exec (.scan 1000#16) (sounding 0 11#8))
        = some (some 4, 12#8, true) := by decide
/-- N4: a retarget; N3: a touch on the sounding channel. -/
theorem test_scan_retarget :
    after (fun t => (t.sndch, t.pwmEn, t.phase, t.selch, t.outTrace)) (exec (.scan 500#16) (sounding 5 0#8))
        = some (some 5, false, .wait, 5, [.indicator true, .pwmEn false, .period 250#16, .duty 125#16])
      ∧ after (fun t => (t.idleCnt, t.selch, t.outTrace)) (exec (.scan 500#16) (sounding 4 6#8))
        = some (0#8, 5, [.chsel 5, .cntClear]) := by decide
/-- N9 and N11: the channel-1 quirk. -/
theorem test_scan_quirk :
    after (fun t => (t.sndch, t.pwmPeriod)) (exec (.scan 300#16) { pending with selch := 1, config := ⟨true, 1, 5, 0, 0⟩ })
        = some (some 0, 210#16)
      ∧ after (fun t => (t.sndch, t.pwmPeriod, t.idleCnt))
          (exec (.scan 300#16)
            { pending with sndch := some 0, pwmPeriod := 210#16, idleCnt := 5#8, config := ⟨true, 1, 5, 0, 0⟩ })
        = some (some 0, 210#16, 0#8) := by decide
/-- S8, S9, S10. -/
theorem test_scan_stuck :
    exec (.scan 1000#16) booted = .fault .scanStuck ∧ exec (.scan 1000#16) (fresh false) = .fault .scanStuck
      ∧ exec (.scan 1000#16) waiting = .fault .scanStuck := ⟨rfl, rfl, rfl⟩

/-! ### PWMB -/

/-- N2, T2. -/
theorem test_pwmb_completes :
    after (fun t => (t.pwmEn, t.idleCnt, t.phase)) (exec .pwmb waiting) = some (true, 0#8, .ready)
      ∧ after (fun t => (t.selch, t.tickPend, t.outTrace)) (exec .pwmb waiting)
        = some (3, false, [.pwmEn true, .chsel 3, .cntClear]) := by decide
/-- T1. -/
theorem test_pwmb_in_ready : exec .pwmb pending = .next pending := rfl

/-! ### Host writes and reads -/

/-- H3, H4. -/
theorem test_ctrl_calibrates_then_runs :
    after (fun t => (t.thresh, t.run)) (exec (.wrCtrl 0x03#8) { fresh false with baseline := 1000#16 }) = some (800#16, true)
      ∧ exec (.wrCtrl 0x02#8) { booted with baseline := 500#16 } = .next { booted with baseline := 500#16 } :=
  ⟨by decide, rfl⟩
/-- The CalThreshold table of L2-H, and its 1/2 rows, where ties occur. -/
theorem test_cal_threshold :
    [0, 3, 7, 8, 999, 1003, 65535].map (calThreshold ⟨false, 1, 5, 0, 0⟩) = [0, 2, 6, 6, 799, 802, 52428]
      ∧ [5, 3].map (calThreshold ⟨false, 1, 2, 0, 0⟩) = [2, 1] := by decide
/-- H9, H10. -/
theorem test_status_clears_lost :
    after (·.tickLost) (exec (.wrStatus 0xF7#8) { booted with tickLost := true }) = some true
      ∧ after (·.tickLost) (exec (.wrStatus 0x08#8) { booted with tickLost := true }) = some false := by decide
/-- The examples of R195 and R196, and H7. -/
theorem test_threshold_bytes :
    after (·.thresh) (exec (.wrThrl 0x20#8) (fresh false)) = some 0x0020#16
      ∧ after (·.thresh) (exec (.wrThrh 0x03#8) { fresh false with thresh := 0x0020#16 }) = some 800#16
      ∧ exec (.wrThrl 0x55#8) booted = .next booted ∧ exec (.wrThrh 0x00#8) booted = .next booted :=
  ⟨by decide, by decide, rfl, rfl⟩
/-- The examples of R197 and R198, and H8. -/
theorem test_baseline_bytes :
    after (·.baseline) (exec (.wrBasel 0xE8#8) { fresh false with baseline := 0x0300#16 }) = some 1000#16
      ∧ after (·.baseline) (exec (.wrBaseh 0x03#8) (fresh false)) = some 0x0300#16
      ∧ after (·.baseline) (exec (.wrBasel 0x00#8) { booted with baseline := 1000#16 }) = some 768#16 := by decide
/-- H11. -/
theorem test_ignored_writes :
    exec (.wrRos 0x2#4 0x05#8) waiting = .next waiting ∧ exec (.wrRop 0x8#4 0xFF#8) waiting = .next waiting
      ∧ exec (.wrRsv 0xF#4 0x12#8) waiting = .next waiting := ⟨rfl, rfl, rfl⟩
/-- H12, H13, H14. -/
theorem test_read_flags :
    hostRead { booted with selch := 3, sndch := some 2 } 0x2#4 = 0x23#8 ∧ hostRead waiting 0x1#4 = 0x27#8
      ∧ after (hostRead · 0x1#4) (exec .pwmb waiting) = some 0x31#8 := by decide
/-- T5, and the last readable and first reserved address (R61). -/
theorem test_read_bytes :
    after (·.hostReads) (exec (.rd 0x8#4) (sounding 0 0#8)) = some [⟨0x8#4, 0xF0#8⟩]
      ∧ hostRead { booted with pwmDuty := 0x1234#16 } 0xB#4 = 0x12#8
      ∧ hostRead { booted with pwmDuty := 0x1234#16 } 0xC#4 = 0x00#8 := by decide

/-! ### Steps -/

theorem test_first_step_after_reset : after (·.outTrace) (step (State.reset.withFetchWord 32 0)) = some [.reset] := by decide
theorem test_step_refuses_reserved_op :
    step ((fresh false).withFetchWord 32 0x60000000)
      = .refused (.malformed .reservedOp
          { fresh false with refusals := [.reservedOp] }) := rfl
/-- R86, R190: after a refused word the run goes on, and a RESET in it resets a WAIT without clearing the mark. -/
theorem test_reset_in_a_marked_run :
    after (fun t => (t.phase, t.refusals, t.outTrace)) (runWords 2 { waiting with stimuli := [0x01000000#32, 0x00000000#32] })
      = some (.ready, [.nonZeroOperand], [.reset]) := by decide

/-! ### Witnesses: states and operands that meet the hypotheses of each statement that has any -/

theorem inv_waiting : StateInv waiting := by constructor <;> decide
theorem inv_sounding : StateInv (sounding 5 0#8) := by constructor <;> decide
theorem inv_fresh : StateInv (fresh false) := by constructor <;> decide

theorem witness_DecodeOfEncode : WellFormed (.wrRos 0x3#4 0xFF#8) = true ∧ WellFormed (.wrRop 0xB#4 0#8) = true
    ∧ WellFormed (.wrRsv 0xC#4 0#8) = true := by decide
theorem witness_EncodeOfDecode : decode 0x4F0000FF#32 = .ok (.wrRsv 0xF#4 0xFF#8) := by decide
theorem witness_EveryWordHasOneTableRow :
    decode 0x5F000000#32 = .ok (.rd 0xF#4) ∧ decode 0x5F000001#32 = .error .nonZeroOperand := by decide
theorem witness_StepRunsDecoded :
    let s := booted.withFetchWord 32 0x10000000
    s.config.valid = true ∧ s.stimuli = 0x10000000#32 :: [] ∧ decode 0x10000000#32 = .ok .tick := by decide
theorem witness_MalformedWordIsRefusedForGood :
    let s := booted.withFetchWord 32 0x60010000
    s.config.valid = true ∧ s.stimuli = 0x60010000#32 :: []
      ∧ decode 0x60010000#32 = .error .reservedBits
      ∧ (∃ t, runWords 1 s = .next t ∧ t.marked = true) ∧ ∃ t, runWords 1 { s with refusals := [.reservedOp] } = .next t :=
  ⟨rfl, rfl, by decide, ⟨_, rfl, rfl⟩, ⟨_, rfl⟩⟩
theorem witness_ConfigurationOutOfRangeIsRefused :
    ({ booted with config := ⟨false, 1, 0, 0, 0⟩ } : State).config.calDen = 0
      ∧ ({ booted with config := ⟨false, 6, 5, 0, 0⟩ } : State).config.calDen < 6 := by decide
theorem witness_NoStimulusNoStep :
    State.reset.config.valid = true ∧ State.reset.stimuli = [] := by decide
theorem witness_ScanStuckExactly :
    (pending.run = true ∧ pending.phase = .ready ∧ pending.tickPend = true)
      ∧ (fresh false).config.valid = true ∧ (0x01#8).getLsbD 0 = true ∧ booted.run = true := by decide
theorem witness_PwmBoundaryResult : StateInv (fresh false) ∧ (fresh false).run = false := ⟨inv_fresh, rfl⟩
theorem witness_ScanTouchStartsTone :
    let s := sounding 5 0#8
    s.run = true ∧ s.phase = .ready ∧ s.tickPend = true ∧ (799#16).toNat < s.thresh.toNat ∧ s.sndch ≠ some s.selch := by decide
theorem witness_ScanTouchHoldsTone :
    let s := sounding 4 6#8
    s.run = true ∧ s.phase = .ready ∧ s.tickPend = true ∧ (799#16).toNat < s.thresh.toNat ∧ s.sndch = some s.selch := by decide
theorem witness_ScanNoTouchCounts :
    let s := sounding 6 12#8
    s.run = true ∧ s.phase = .ready ∧ s.tickPend = true ∧ s.thresh.toNat ≤ (800#16).toNat
      ∧ (s.idleCnt.toNat + 1) % 256 = 13 := by decide
theorem witness_NoScanWithoutNewTick :
    (∃ t, exec (.scan 600#16) pending = .next t) ∧ ∃ t, exec (.scan 800#16) pending = .next t := ⟨⟨_, rfl⟩, ⟨_, rfl⟩⟩
theorem witness_ZeroThresholdNeverSounds :
    let s := { pending with thresh := 0#16 }
    s.run = true ∧ s.thresh = 0#16 ∧ s.sndch = none ∧ s.phase = .ready ∧ ∃ t, exec (.scan 0#16) s = .next t :=
  ⟨rfl, rfl, rfl, rfl, _, rfl⟩
theorem witness_WriteCtrlResult : 0 < (fresh false).config.calDen ∧ (fresh false).config.calNum ≤ (fresh false).config.calDen := by
  decide
theorem witness_CalibrationFormula :
    (0 < (Config.mk false 5 5 0 0).calDen ∧ (Config.mk false 5 5 0 0).calNum ≤ (Config.mk false 5 5 0 0).calDen)
      ∧ (Config.mk false 1 5 0 0).calNum = 1 ∧ (Config.mk false 1 5 0 0).calDen = 5 := by decide
theorem witness_TornPeriodRead :
    let s := { pending with selch := 3, pwmPeriod := 0x00FF#16 }
    s.run = true ∧ s.phase = .ready ∧ s.tickPend = true ∧ (0#16).toNat < s.thresh.toNat ∧ s.sndch ≠ some s.selch := by decide
theorem witness_HostWriteFrame : exec (decodeWrite 0x0#4 0x00#8) booted = .next booted := rfl
theorem witness_HostWriteChangesOwnByte :
    (∃ t, exec (decodeWrite 0x5#4 0x03#8) (fresh false) = .next t) ∧ (fresh false).run = false
      ∧ ∃ t, exec (decodeWrite 0x7#4 0x03#8) booted = .next t := ⟨⟨_, rfl⟩, rfl, ⟨_, rfl⟩⟩
theorem witness_RomAndParametersNeverChange : ∃ t, exec (.scan 0#16) pending = .next t := ⟨_, rfl⟩
theorem witness_OutputTraceIsWriteOnly : ∃ t, exec .pwmb waiting = .next t := ⟨_, rfl⟩
theorem witness_RunAndThresholdFixedUntilReset :
    booted.run = true ∧ ∃ t, exec (.wrThrl 0x55#8) booted = .next t := ⟨rfl, _, rfl⟩
theorem witness_OnlyTheSequencerWritesScanState : ∃ t, exec (.wrBasel 0xE8#8) waiting = .next t := ⟨_, rfl⟩
theorem witness_TickLostIsSticky :
    (∃ t, exec .tick pending = .next t ∧ pending.tickLost = false ∧ t.tickLost = true)
      ∧ ∃ t, exec (.wrStatus 0x08#8) { pending with tickLost := true } = .next t ∧ t.tickLost = false :=
  ⟨⟨_, rfl, rfl, rfl⟩, ⟨_, rfl, rfl⟩⟩
theorem witness_OneAdvancePerProcessedTick :
    (∃ t, exec (.scan 800#16) (sounding 6 0#8) = .next t ∧ t.selch = 0) ∧ ∃ t, exec .tick booted = .next t :=
  ⟨⟨_, rfl, by decide⟩, ⟨_, rfl⟩⟩
theorem witness_WaitIsAHold :
    StateInv waiting ∧ waiting.phase = .wait ∧ ∃ t, exec .tick waiting = .next t := ⟨inv_waiting, rfl, _, rfl⟩
theorem witness_PwmEnabledOnlyAtBoundary :
    (∃ t, exec .pwmb waiting = .next t ∧ t.outTrace = waiting.outTrace ++ [.pwmEn true, .chsel 3, .cntClear])
      ∧ ∃ t, exec (.scan 0#16) (sounding 5 0#8) = .next t ∧ t.pwmPeriod ≠ (sounding 5 0#8).pwmPeriod :=
  ⟨⟨_, rfl, by decide⟩, ⟨_, rfl, by decide⟩⟩
theorem witness_SimultaneousEventsByOrder :
    (StateInv waiting ∧ waiting.phase = .wait) ∧ StateInv (fresh false) ∧ (fresh false).run = false := ⟨⟨inv_waiting, rfl⟩, inv_fresh, rfl⟩
theorem witness_BaselineDoesNotReachTheScan :
    (∃ t, exec (.scan 0#16) pending = .next t) ∧ booted.run = true ∧ ∃ t, exec (.wrCtrl 0x02#8) booted = .next t :=
  ⟨⟨_, rfl⟩, rfl, _, rfl⟩
theorem witness_ChannelOneQuirk :
    let s := { pending with selch := 1, sndch := some 0, config := ⟨true, 1, 5, 0, 0⟩ }
    let s' := { s with selch := 0 }
    (s.config.ch1Quirk = true ∧ s.run = true ∧ s.phase = .ready ∧ s.tickPend = true ∧ (300#16).toNat < s.thresh.toNat
      ∧ s.selch = 1 ∧ s.sndch ≠ some 1) ∧ s'.selch = 0 ∧ s'.sndch = some 0 := by decide
theorem witness_StepKeepsInvariant :
    StateInv (waiting.withFetchWord 32 0x30000000) ∧ ∃ t, step (waiting.withFetchWord 32 0x30000000) = .next t :=
  ⟨by constructor <;> decide, _, rfl⟩
theorem witness_SpecChecksAfterEveryStep :
    StateInv ((sounding 5 0#8).withFetchWord 32 0x20000000) ∧ ∃ t, step ((sounding 5 0#8).withFetchWord 32 0x20000000) = .next t :=
  ⟨by constructor <;> decide, _, rfl⟩
theorem witness_StepKeepsGlitchFree :
    GlitchFree (pending.withFetchWord 32 0x20000000).outTrace ∧ ∃ t, step (pending.withFetchWord 32 0x20000000) = .next t :=
  ⟨fun before e after h => by simp [State.withFetchWord, pending, booted, fresh, State.reset] at h, _, rfl⟩
theorem witness_TraceShowsOutputs :
    let s := pending.withFetchWord 32 0x20000000
    shownOutputs s.outTrace = outputsOf s ∧ ∃ t, step s = .next t := ⟨by decide, _, rfl⟩
theorem witness_HeldNoteNeverStops :
    (sounding 5 0#8).config.ch1Quirk = false ∧ Held 4 (sounding 5 0#8)
      ∧ ∃ t, exec (.scan 1000#16) (sounding 5 0#8) = .next t :=
  ⟨rfl, ⟨rfl, by decide, by decide⟩, _, rfl⟩
/-- Channel 4 sounds, was scanned last, and thirteen no-touch ticks are to come. -/
def releasing : State :=
  { sounding 5 0#8 with
    tickPend := false, stimuli := (List.replicate 12 1000#16).flatMap tickScan ++ (tickScan 800#16 ++ []) }
theorem witness_StopLatencyThirteenTicks :
    Idling releasing ∧ releasing.selch = (4 : Channel) + 1 ∧ releasing.idleCnt = 0#8
      ∧ (List.replicate 12 1000#16).length = 12
      ∧ (∀ count ∈ List.replicate 12 1000#16 ++ [800#16], releasing.thresh.toNat ≤ count.toNat)
      ∧ releasing.stimuli = (List.replicate 12 1000#16).flatMap tickScan ++ (tickScan 800#16 ++ []) := by
  refine ⟨⟨rfl, rfl, rfl, rfl⟩, rfl, rfl, rfl, fun count h => ?_, rfl⟩
  rcases List.mem_append.mp h with h | h
  · rw [List.eq_of_mem_replicate h]; decide
  · rw [List.mem_singleton.mp h]; decide
theorem witness_RoundRobinOverTicks :
    let s := { booted with stimuli := [800#16, 65535#16].flatMap tickScan ++ [] }
    Idling s ∧ (∀ count ∈ [800#16, 65535#16], s.thresh.toNat ≤ count.toNat) := by
  refine ⟨⟨rfl, rfl, rfl, rfl⟩, fun count h => ?_⟩
  rcases List.mem_pair.mp h with rfl | rfl <;> decide
theorem witness_WaitEndsAtFirstBoundary :
    let before := [Instr.tick, .wrCtrl 0x03#8, .rd 0x1#4]
    let s := { waiting with stimuli := before.map encode ++ encode .pwmb :: [] }
    s.config.valid = true ∧ s.phase = .wait ∧ (∀ i ∈ before, WellFormed i = true ∧ leavesWait i = true) :=
  ⟨rfl, rfl, by decide⟩
theorem witness_WaitEndsUnderPwmRuns :
    let stream : Nat → StimWord := fun n => if n % 2 = 0 then 0x10000000#32 else 0x30000000#32
    waiting.config.valid = true ∧ waiting.phase = .wait ∧ PwmRuns stream
      ∧ ∀ n, ∃ i, decode (stream n) = .ok i ∧ (leavesWait i = true ∨ i = .pwmb) := by
  refine ⟨by decide, rfl, fun n => ⟨2 * n + 1, by omega, ?_⟩, fun n => ?_⟩
  · simp only [Spells, show (2 * n + 1) % 2 ≠ 0 by omega, if_false]; decide
  · by_cases h : n % 2 = 0
    · exact ⟨.tick, by simp only [h, if_true]; decide, .inl rfl⟩
    · exact ⟨.pwmb, by simp only [h, if_false]; decide, .inr rfl⟩
theorem witness_ResetAfterRefusedWord :
    let s := { waiting with stimuli := 0x60010000#32 :: encode .reset :: [] }
    s.config.valid = true ∧ s.stimuli = 0x60010000#32 :: encode .reset :: [] ∧ decode 0x60010000#32 = .error .reservedBits := by
  decide

/-! ### An endless run that meets R234: tick, scan without a touch, boundary, and again -/

/-- The state before each word of the endless run of a stream from `s`, while no word stops it. -/
def statesOf (stream : Nat → StimWord) (s : State) : Nat → State
  | 0     => s
  | n + 1 =>
    match step { statesOf stream s n with stimuli := [stream n] } with
    | .next t => t
    | .fault _ | .refused _ => s

/-- TICK, SCAN 65535, PWMB, and again. -/
def calm (n : Nat) : StimWord := if n % 3 = 0 then 0x10000000#32 else if n % 3 = 1 then 0x2000FFFF#32 else 0x30000000#32

/-- Channel 4 sounds, and no tick is pending. -/
def released : State := { sounding 5 0#8 with tickPend := false }

theorem calm_spells (n : Nat) :
    (n % 3 = 0 → Spells calm n .tick) ∧ (n % 3 = 1 → Spells calm n (.scan 65535#16)) ∧ (n % 3 = 2 → Spells calm n .pwmb) := by
  refine ⟨fun h => ?_, fun h => ?_, fun h => ?_⟩ <;> simp only [Spells, calm, h] <;> decide

/-- What holds before word `n`: the machine scans, and a tick is pending exactly when a SCAN comes next. -/
def Calm (n : Nat) (s : State) : Prop :=
  s.config.valid = true ∧ s.run = true ∧ s.phase = .ready ∧ s.tickPend = decide (n % 3 = 1)

theorem calm_step {n : Nat} {s : State} (h : Calm n s) :
    ∃ t, step { s with stimuli := [calm n] } = .next t ∧ Calm (n + 1) t := by
  obtain ⟨valid, run, ready, tick⟩ := h
  obtain ⟨ticks, scans, boundaries⟩ := calm_spells n
  rcases (by omega : n % 3 = 0 ∨ n % 3 = 1 ∨ n % 3 = 2) with h | h | h
  · refine ⟨{ s with stimuli := [], tickPend := true }, ?_, valid, run, ready, by simp [show (n + 1) % 3 = 1 by omega]⟩
    simp [step, fetch, valid, show decode (calm n) = _ from ticks h, exec, execTick, run, tick, h]
  · have enabled : State.scanEnabled { s with stimuli := [] } = true := (scanEnabled_iff _).mpr ⟨run, ready, by simp [tick, h]⟩
    obtain ⟨t, answer⟩ : ∃ t, exec (.scan 65535#16) { s with stimuli := [] } = .next t := ⟨_, if_pos enabled⟩
    refine ⟨t, ?_, ?_⟩
    · simpa [step, fetch, valid, show decode (calm n) = _ from scans h] using answer
    · have idle : ¬ 65535#16 < s.thresh := by have := s.thresh.isLt; simp only [BitVec.lt_def, BitVec.toNat_ofNat]; omega
      have none : ¬ (n + 1) % 3 = 1 := by omega
      rcases (exec_inv answer).2 with ⟨touch, -⟩ | ⟨touch, -⟩ | ⟨-, -, e⟩ | ⟨-, -, e⟩
      · exact absurd touch idle
      · exact absurd touch idle
      all_goals rw [e]; simp [Calm, finish_eq, valid, run, ready, none]
  · refine ⟨{ s with stimuli := [] }, ?_, valid, run, ready, by rw [tick, h]; simp; omega⟩
    simp [step, fetch, valid, show decode (calm n) = _ from boundaries h, exec, execPwmb, ready]

theorem calm_states (n : Nat) : Calm n (statesOf calm released n) := by
  induction n with
  | zero => exact ⟨by decide, rfl, rfl, rfl⟩
  | succ n ih =>
    obtain ⟨t, answer, next⟩ := calm_step ih
    simpa only [statesOf, answer] using next

theorem calm_scanning : ScanningFrom calm (statesOf calm released) 0 where
  steps n := by
    obtain ⟨t, answer, -⟩ := calm_step (calm_states n)
    simp only [statesOf, answer]
  environment :=
    { scanFair := fun n _ => ⟨3 * n + 1, 65535#16, by omega, (calm_spells _).2.1 (by omega)⟩
      ticks := fun n _ => ⟨3 * n, by omega, (calm_spells _).1 (by omega)⟩
      pwmRuns := fun n => ⟨3 * n + 2, by omega, (calm_spells _).2.2 (by omega)⟩ }
  running := rfl
  noReset n _ reset := by
    obtain ⟨ticks, scans, boundaries⟩ := calm_spells n
    rcases (by omega : n % 3 = 0 ∨ n % 3 = 1 ∨ n % 3 = 2) with h | h | h
    · exact nomatch (ticks h).symm.trans reset
    · exact nomatch (scans h).symm.trans reset
    · exact nomatch (boundaries h).symm.trans reset

theorem witness_EveryChannelIsScannedAgain : ∃ stream states, ScanningFrom stream states 0 := ⟨_, _, calm_scanning⟩
theorem witness_ReleasedToneStops :
    ScanningFrom calm (statesOf calm released) 0
      ∧ ∀ m count, 0 ≤ m → Spells calm m (.scan count) → (statesOf calm released 0).thresh.toNat ≤ count.toNat := by
  refine ⟨calm_scanning, fun m count _ spells => ?_⟩
  obtain ⟨ticks, scans, boundaries⟩ := calm_spells m
  rcases (by omega : m % 3 = 0 ∨ m % 3 = 1 ∨ m % 3 = 2) with h | h | h
  · exact nomatch (ticks h).symm.trans spells
  · cases (scans h).symm.trans spells
    decide
  · exact nomatch (boundaries h).symm.trans spells

end Sys2Proof.Tests
end

section
/-! The scope statements: a configuration out of range and an empty list of stimuli stop the fetch, and with it the step
(spec/00_scope.md R14, R2). -/

namespace Sys2Proof.Machine

/-- R14: a configuration is out of range just when CAL_DEN = 0 or CAL_NUM > CAL_DEN. -/
theorem config_valid_eq_false_iff (c : Config) : c.valid = false ↔ c.calDen = 0 ∨ c.calDen < c.calNum := by
  simp only [Config.valid, Bool.and_eq_false_iff, decide_eq_false_iff_not, Nat.not_lt, Nat.le_zero, Nat.not_le]

/-- R14: the fetch looks at the configuration first, so the pending stimuli do not matter. -/
theorem fetch_of_config_invalid {s : State} (out : s.config.valid = false) : fetch s = .refused .configOutOfRange := by
  simp [fetch, out]

theorem fetch_of_no_stimuli {s : State} (valid : s.config.valid = true) (empty : s.stimuli = []) :
    fetch s = .fault .noStimulus := by
  simp [fetch, valid, empty]

/-- What stops the fetch stops the step. -/
theorem step_of_fetch_refused {s : State} {r : Refusal} (h : fetch s = .refused r) : step s = .refused r := by
  simp [step, h]

theorem step_of_fetch_fault {s : State} {f : Fault} (h : fetch s = .fault f) : step s = .fault f := by
  simp [step, h]

/-- Settles O9: the fetch refuses a fraction out of range before it looks at a stimulus, and the default is 1/5. -/
theorem configurationOutOfRangeIsRefused : Obligations.ConfigurationOutOfRangeIsRefused := by
  unfold Obligations.ConfigurationOutOfRangeIsRefused
  refine ⟨fun s outOfRange => ?_, rfl, rfl, rfl⟩
  have invalid : s.config.valid = false := (config_valid_eq_false_iff s.config).mpr outOfRange
  exact step_of_fetch_refused (fetch_of_config_invalid invalid)

/-- Settles O10: in range, the fetch finds no word to take. -/
theorem noStimulusNoStep : Obligations.NoStimulusNoStep := by
  unfold Obligations.NoStimulusNoStep
  intro s valid empty
  exact step_of_fetch_fault (fetch_of_no_stimuli valid empty)

end Sys2Proof.Machine
end

section
/-! What an answered SCAN leaves alone, and the converse of `execScan_inv`: an enabled SCAN answers the state of its case. -/

namespace Sys2Proof.Machine

/-- R106: a SCAN that is enabled answers, and its answer is the one its case names. -/
theorem execScan_of_scanCase {count : Half} {s t : State}
    (enabled : s.run = true ∧ s.phase = .ready ∧ s.tickPend = true) (h : ScanCase count s t) :
    execScan count s = .next t := by
  have answered : execScan count s = .next (finishIfReady (noteStep count s)) := if_pos ((scanEnabled_iff s).mpr enabled)
  obtain ⟨-, found⟩ := execScan_inv answered
  rw [answered]
  obtain ⟨touch, other, rfl⟩ | ⟨touch, own, rfl⟩ | ⟨idle, more, rfl⟩ | ⟨idle, last, rfl⟩ := h
  · simpa [ScanCase, touch, other] using found
  · simpa [ScanCase, touch, own] using found
  · simpa [ScanCase, idle, more] using found
  · simpa [ScanCase, idle, last] using found

/-- R100: a SCAN writes none of the registers that the host or a TICK writes, except TICKPEND. -/
theorem ScanCase.host_registers {count : Half} {s t : State} (h : ScanCase count s t) :
    t.run = s.run ∧ t.thresh = s.thresh ∧ t.tickLost = s.tickLost ∧ t.baseline = s.baseline := by
  obtain ⟨-, -, rfl⟩ | ⟨-, -, rfl⟩ | ⟨-, -, rfl⟩ | ⟨-, -, rfl⟩ := h <;> exact ⟨rfl, rfl, rfl, rfl⟩

/-- R43, R27: a SCAN appends its events to the trace, and reads neither the trace nor BASELINE. -/
theorem ScanCase.outTrace_baseline_frame {count : Half} {s t : State} (h : ScanCase count s t) :
    ∃ events, t.outTrace = s.outTrace ++ events ∧ ∀ trace v,
      ScanCase count { s with outTrace := trace, baseline := v } { t with outTrace := trace ++ events, baseline := v } := by
  obtain ⟨touch, other, rfl⟩ | ⟨touch, own, rfl⟩ | ⟨idle, more, rfl⟩ | ⟨idle, last, rfl⟩ := h
  · refine ⟨[.indicator true, .pwmEn false, .period s.tone[s.selch].period, .duty s.tone[s.selch].duty], ?_,
      fun trace v => .inl ⟨touch, other, ?_⟩⟩ <;> simp only [startTone_eq]
  · refine ⟨[.chsel (s.selch + 1), .cntClear], ?_, fun trace v => .inr (.inl ⟨touch, own, ?_⟩)⟩ <;> simp only [finish_eq]
  · refine ⟨[.chsel (s.selch + 1), .cntClear], ?_, fun trace v => .inr (.inr (.inl ⟨idle, more, ?_⟩))⟩ <;> simp only [finish_eq]
  · refine ⟨[.indicator false, .pwmEn false, .chsel (s.selch + 1), .cntClear], ?_,
      fun trace v => .inr (.inr (.inr ⟨idle, last, ?_⟩))⟩ <;> simp [finish_eq]

/-- R43: a write of CTRL neither reads nor writes the trace. -/
theorem execWrCtrl_outTrace_frame {byte : Byte} {s t : State} (h : execWrCtrl byte s = .next t) (trace : List OutEvent) :
    execWrCtrl byte { s with outTrace := trace } = .next { t with outTrace := trace } := by
  unfold execWrCtrl at *
  split_ifs at * <;> cases h <;> rfl

end Sys2Proof.Machine
end

section
/-! The invariant of R42: which writes keep it, one rule per operation of the sequencer, and so every stimulus and every step. -/

namespace Sys2Proof.Safety

open Sys2Proof Sys2Proof.Machine

/-- R250, R42: the reset registers meet the invariant, whatever the fields that RESET leaves alone hold. -/
theorem stateInv_reset (tone : ToneTable) (config : Config) (outTrace : List OutEvent) (refusals : List RefusalReason)
    (stimuli : List StimWord) (hostReads : List HostRead) :
    StateInv { State.reset with
      tone := tone, config := config, outTrace := outTrace, refusals := refusals, stimuli := stimuli,
      hostReads := hostReads } where
  idleBound := Nat.zero_le 12
  inWait := nofun
  stopped _ := ⟨rfl, rfl, rfl, rfl, rfl, rfl, rfl⟩
  inReady _ := ⟨rfl, rfl⟩
  toneOwn := nofun

/-- The invariant speaks of no host register but RUN, and of none of the model's own lists. -/
theorem stateInv_frame {s : State} (inv : StateInv s) {thresh baseline : Half} {tickLost : Bool} {outTrace : List OutEvent}
    {stimuli : List StimWord} {hostReads : List HostRead} :
    StateInv { s with
      thresh := thresh, baseline := baseline, tickLost := tickLost, outTrace := outTrace, stimuli := stimuli,
      hostReads := hostReads } :=
  ⟨inv.idleBound, inv.inWait, inv.stopped, inv.inReady, inv.toneOwn⟩

/-- R28: a machine that is stopped may be started, since it is READY. -/
theorem stateInv_run {s : State} (inv : StateInv s) (stopped : s.run = false) (run : Bool) :
    StateInv { s with run := run } where
  idleBound := inv.idleBound
  inWait wait := by simp [(inv.stopped stopped).1] at wait
  stopped _ := inv.stopped stopped
  inReady := inv.inReady
  toneOwn := inv.toneOwn

/-- R170: a running machine may take a tick. -/
theorem stateInv_tickPend {s : State} (inv : StateInv s) (run : s.run = true) : StateInv { s with tickPend := true } where
  idleBound := inv.idleBound
  inWait wait := by
    obtain ⟨-, -, rest⟩ := inv.inWait wait
    exact ⟨run, rfl, rest⟩
  stopped stop := by simp [run] at stop
  inReady := inv.inReady
  toneOwn := inv.toneOwn

/-- R171: the end of a tick keeps the invariant of a running machine in READY. -/
theorem stateInv_finish {s : State} (inv : StateInv s) (run : s.run = true) (ready : s.phase = .ready) :
    StateInv (finish s) where
  idleBound := inv.idleBound
  inWait wait := by simp [finish_eq, ready] at wait
  stopped stop := by simp [finish_eq, run] at stop
  inReady := inv.inReady
  toneOwn := inv.toneOwn

/-- R25: IDLECNT of a running machine may be written within its bound. -/
theorem stateInv_idleCnt {s : State} (inv : StateInv s) (run : s.run = true) {n : Byte} (bound : n.toNat ≤ 12) :
    StateInv { s with idleCnt := n } where
  idleBound := bound
  inWait := inv.inWait
  stopped stop := by simp [run] at stop
  inReady := inv.inReady
  toneOwn := inv.toneOwn

/-- R152: a stopped tone leaves nothing lit, enabled or recorded. -/
theorem stateInv_stopTone {s : State} (inv : StateInv s) (run : s.run = true) (ready : s.phase = .ready) :
    StateInv (stopTone s) where
  idleBound := inv.idleBound
  inWait wait := by simp [stopTone_eq, ready] at wait
  stopped stop := by simp [stopTone_eq, run] at stop
  inReady _ := ⟨rfl, rfl⟩
  toneOwn := nofun

/-- R122, R42: the channel a start records owns the tone programmed, but for channel 1 under CH1_QUIRK, recorded as 0. -/
theorem startTone_toneOwn (s : State) (ch c : Channel) (recorded : (startTone ch s).sndch = some c) :
    Programmed (startTone ch s) c
      ∨ ((startTone ch s).config.ch1Quirk = true ∧ c = 0 ∧ Programmed (startTone ch s) 1) := by
  simp only [startTone_eq, recordedChannel, Option.some.injEq] at recorded ⊢
  split_ifs at recorded with quirk
  · obtain ⟨on, one⟩ : s.config.ch1Quirk = true ∧ ch = 1 := by simpa using quirk
    subst one recorded
    exact .inr ⟨on, rfl, rfl, rfl⟩
  · subst recorded
    exact .inl ⟨rfl, rfl⟩

/-- R150: a start keeps the invariant where a SCAN is enabled. -/
theorem stateInv_startTone {s : State} (inv : StateInv s) (run : s.run = true) (tick : s.tickPend = true) (ch : Channel) :
    StateInv (startTone ch s) where
  idleBound := inv.idleBound
  inWait _ := ⟨run, tick, nofun, rfl, rfl⟩
  stopped stop := by simp [startTone_eq, run] at stop
  inReady ready := by simp [startTone_eq] at ready
  toneOwn := startTone_toneOwn s ch

/-- R151: the boundary that ends a WAIT re-enables the tone that the start recorded. -/
theorem stateInv_completeStart {s : State} (inv : StateInv s) (wait : s.phase = .wait) : StateInv (completeStart s) := by
  obtain ⟨run, -, sounds, lit, -⟩ := inv.inWait wait
  have some : true = s.sndch.isSome := (Option.isSome_iff_ne_none.mpr sounds).symm
  have enabled : StateInv { setPwmEn true s with idleCnt := 0#8, phase := .ready } :=
    { idleBound := Nat.zero_le 12
      inWait := nofun
      stopped := fun stop => by simp [run] at stop
      inReady := fun _ => ⟨lit.trans some, some⟩
      toneOwn := inv.toneOwn }
  exact stateInv_finish enabled run rfl

/-- R100: each case of a SCAN keeps the invariant; the no-touch count stays within 12, since 12 is the last. -/
theorem stateInv_scan {count : Half} {s t : State} (inv : StateInv s)
    (enabled : s.run = true ∧ s.phase = .ready ∧ s.tickPend = true) (h : ScanCase count s t) : StateInv t := by
  obtain ⟨run, ready, tick⟩ := enabled
  obtain ⟨-, -, rfl⟩ | ⟨-, -, rfl⟩ | ⟨-, more, rfl⟩ | ⟨-, last, rfl⟩ := h
  · exact stateInv_startTone inv run tick s.selch
  · exact stateInv_finish (stateInv_idleCnt inv run (Nat.zero_le 12)) run ready
  · have bound : (s.idleCnt + 1#8).toNat ≤ 12 := by
      have := inv.idleBound
      bv_omega
    exact stateInv_finish (stateInv_idleCnt inv run bound) run ready
  · have stopped := stateInv_idleCnt (stateInv_stopTone inv run ready) run (n := 0#8) (Nat.zero_le 12)
    rw [stopTone_eq] at stopped
    exact stateInv_finish stopped run ready

/-- R42: every stimulus keeps the invariant. -/
theorem stateInv_exec {i : Instr} {s t : State} (inv : StateInv s) (h : exec i s = .next t) : StateInv t := by
  have answer := exec_inv h
  cases i with
  | reset =>
    subst answer
    exact stateInv_reset ..
  | tick =>
    obtain ⟨-, rfl⟩ | ⟨-, -, rfl⟩ | ⟨run, -, rfl⟩ := answer
    · exact inv
    · exact stateInv_frame inv
    · exact stateInv_tickPend inv run
  | scan count =>
    obtain ⟨enabled, scanned⟩ := answer
    exact stateInv_scan inv enabled scanned
  | pwmb =>
    obtain ⟨wait, rfl⟩ | ⟨-, rfl⟩ := answer
    · exact stateInv_completeStart inv wait
    · exact inv
  | wrCtrl byte =>
    obtain ⟨-, rfl⟩ | ⟨stopped, rfl⟩ := answer
    · exact inv
    · exact stateInv_frame (stateInv_run inv stopped (bitOf byte 0))
  | wrRos addr byte | wrRop addr byte | wrRsv addr byte =>
    subst answer
    exact inv
  | wrStatus byte | wrThrl byte | wrThrh byte | wrBasel byte | wrBaseh byte | rd addr =>
    subst answer
    exact stateInv_frame inv

theorem stateInv_step {s t : State} (inv : StateInv s) (h : step s = .next t) : StateInv t := by
  obtain ⟨-, i, w, rest, -, -, executed⟩ := step_inv h
  exact stateInv_exec (stateInv_frame inv) executed

/-- Settles O45: the fetch writes only the pending list, and every stimulus keeps the invariant. -/
theorem stepKeepsInvariant : Obligations.StepKeepsInvariant := by
  unfold Obligations.StepKeepsInvariant
  intro s t inv h
  exact stateInv_step inv h

/-- R22: a channel's number fits its three bits. -/
theorem channelBits_toNat (c : Channel) : (channelBits c).toNat = c.val := by
  have bound : c.val < 7 := c.isLt
  rw [channelBits, BitVec.toNat_ofNat]
  omega

theorem channelBits_toNat_le (c : Channel) : (channelBits c).toNat ≤ 6 := by
  rw [channelBits_toNat]
  exact Nat.le_of_lt_succ c.isLt

/-- R42: the invariant that steps keep gives the spec's eight checks. -/
theorem specChecks_of_stateInv {s : State} (inv : StateInv s) : SpecChecks s := by
  refine ⟨channelBits_toNat_le s.selch, ?sounding, inv.idleBound, inv.inWait, inv.stopped, fun ready => ?outputs,
    fun _ plain c recorded => ?own, fun _ _ c recorded foreign => ?quirk⟩
  case sounding =>
    cases s.sndch with
    | none => exact .inr ⟨rfl, rfl⟩
    | some c => exact .inl (channelBits_toNat_le c)
  case outputs =>
    obtain ⟨lit, enabled⟩ := inv.inReady ready
    rw [lit, enabled, Option.isSome_iff_ne_none]
    exact ⟨Iff.rfl, Iff.rfl⟩
  case own =>
    rcases inv.toneOwn c recorded with own | ⟨quirk, -⟩
    · exact own
    · simp [plain] at quirk
  case quirk =>
    rcases inv.toneOwn c recorded with own | ⟨-, zero⟩
    · exact absurd own foreign
    · exact zero

/-- Settles O46: a step keeps the invariant, and the invariant gives the eight checks. -/
theorem specChecksAfterEveryStep : Obligations.SpecChecksAfterEveryStep := by
  unfold Obligations.SpecChecksAfterEveryStep
  intro s t inv h
  exact specChecks_of_stateInv (stateInv_step inv h)

end Sys2Proof.Safety
end

section
/-! What the trace shows (R43, R37): an output register is written only together with its event, so whatever is built from these
writes keeps the trace in line with the registers. -/

namespace Sys2Proof.Safety

open Sys2Proof Sys2Proof.Machine

/-- The trace of a state shows its output registers. -/
def Shows (s : State) : Prop := shownOutputs s.outTrace = outputsOf s

/-- The event of a write says what the write does to the outputs. -/
theorem shows_emit {s written : State} {e : OutEvent} (h : Shows s) (trace : written.outTrace = s.outTrace)
    (outputs : outputsOf written = (outputsOf s).after e) : Shows (emit e written) := by
  have shown : shownOutputs s.outTrace = outputsOf s := h
  change shownOutputs (written.outTrace ++ [e]) = outputsOf written
  rw [trace, outputs, ← shown]
  exact List.foldl_concat ..

section
variable {s : State} (h : Shows s)
include h

theorem shows_setIndicator (on : Bool) : Shows (setIndicator on s) := shows_emit h rfl rfl

theorem shows_setPwmEn (on : Bool) : Shows (setPwmEn on s) := shows_emit h rfl rfl

theorem shows_setPwmPeriod (v : Half) : Shows (setPwmPeriod v s) := shows_emit h rfl rfl

theorem shows_setPwmDuty (v : Half) : Shows (setPwmDuty v s) := shows_emit h rfl rfl

theorem shows_advance : Shows (advance s) := shows_emit h rfl rfl

theorem shows_rearm : Shows (rearm s) := shows_emit h rfl rfl

/-- R171: TICKPEND is no output. -/
theorem shows_finish : Shows (finish s) := shows_rearm (shows_advance h)

/-- R150: SNDCH and PHASE are no outputs, and the four writes between them have their events. -/
theorem shows_startTone (ch : Channel) : Shows (startTone ch s) := by
  have recorded : Shows { s with sndch := some (recordedChannel s.config.ch1Quirk ch) } := h
  exact shows_setPwmDuty (shows_setPwmPeriod (shows_setPwmEn (shows_setIndicator recorded true) false) _) _

theorem shows_stopTone : Shows (stopTone s) := shows_setPwmEn (shows_setIndicator h false) false

theorem shows_completeStart : Shows (completeStart s) := by
  have enabled : Shows { setPwmEn true s with idleCnt := 0#8, phase := .ready } := shows_setPwmEn h true
  exact shows_finish enabled

theorem shows_scan {count : Half} {t : State} (scanned : ScanCase count s t) : Shows t := by
  obtain ⟨-, -, rfl⟩ | ⟨-, -, rfl⟩ | ⟨-, -, rfl⟩ | ⟨-, -, rfl⟩ := scanned
  · exact shows_startTone h s.selch
  · exact shows_finish (s := { s with idleCnt := 0#8 }) h
  · exact shows_finish (s := { s with idleCnt := s.idleCnt + 1#8 }) h
  · have stopped : Shows { stopTone s with idleCnt := 0#8 } := shows_stopTone h
    rw [stopTone_eq] at stopped
    exact shows_finish stopped

/-- R43: every stimulus keeps the trace in line with the outputs; RESET zeroes both. -/
theorem shows_exec {i : Instr} {t : State} (executed : exec i s = .next t) : Shows t := by
  have answer := exec_inv executed
  cases i with
  | reset =>
    subst answer
    exact shows_emit h rfl rfl
  | tick => obtain ⟨-, rfl⟩ | ⟨-, -, rfl⟩ | ⟨-, -, rfl⟩ := answer <;> exact h
  | scan count => exact shows_scan h answer.2
  | pwmb =>
    obtain ⟨-, rfl⟩ | ⟨-, rfl⟩ := answer
    · exact shows_completeStart h
    · exact h
  | wrCtrl byte => obtain ⟨-, rfl⟩ | ⟨-, rfl⟩ := answer <;> exact h
  | wrStatus | wrRos | wrThrl | wrThrh | wrBasel | wrBaseh | wrRop | wrRsv | rd =>
    subst answer
    exact h

end

/-- Settles O48: the fetch touches neither trace nor outputs, and every stimulus keeps them in line. -/
theorem traceShowsOutputs : Obligations.TraceShowsOutputs := by
  unfold Obligations.TraceShowsOutputs
  intro s t h answered
  obtain ⟨-, i, w, rest, -, -, executed⟩ := step_inv answered
  have fetched : Shows { s with stimuli := rest } := h
  exact shows_exec fetched executed

end Sys2Proof.Safety
end

section
/-! What no stimulus reads or writes: the trace (R43), BASELINE (R27), RUN and THRESH once RUN = 1 (R28), TICKLOST (R31). -/

namespace Sys2Proof.Safety

open Sys2Proof Sys2Proof.Machine

/-- What a stimulus without an event does to the trace, in the form of R43's claim: it appends nothing. -/
theorem appends_nothing {i : Instr} {s t : State} (kept : t.outTrace = s.outTrace)
    (blind : ∀ trace, exec i { s with outTrace := trace } = .next { t with outTrace := trace }) :
    ∃ events, t.outTrace = s.outTrace ++ events
      ∧ ∀ trace, exec i { s with outTrace := trace } = .next { t with outTrace := trace ++ events } :=
  ⟨[], by simpa using kept, fun trace => by simpa using blind trace⟩

/-- Settles O34: RESET, a SCAN and the PWMB that ends a WAIT append their events; the other answers append none. -/
theorem outputTraceIsWriteOnly : Obligations.OutputTraceIsWriteOnly := by
  unfold Obligations.OutputTraceIsWriteOnly
  intro i s t h
  have answer := exec_inv h
  cases i with
  | reset =>
    subst answer
    exact ⟨[.reset], rfl, fun _ => rfl⟩
  | scan count =>
    obtain ⟨enabled, scanned⟩ := answer
    obtain ⟨events, appended, blind⟩ := scanned.outTrace_baseline_frame
    obtain ⟨-, -, -, baseline⟩ := scanned.host_registers
    refine ⟨events, appended, fun trace => execScan_of_scanCase enabled ?_⟩
    simpa only [baseline] using blind trace s.baseline
  | pwmb =>
    obtain ⟨wait, rfl⟩ | ⟨ready, rfl⟩ := answer
    · refine ⟨[.pwmEn true, .chsel (s.selch + 1), .cntClear], by rw [completeStart_eq], fun trace => ?_⟩
      simp [exec, execPwmb_eq, wait, completeStart_eq]
    · exact appends_nothing rfl fun trace => by simp [exec, execPwmb_eq, ready]
  | tick =>
    obtain ⟨stopped, rfl⟩ | ⟨run, pend, rfl⟩ | ⟨run, free, rfl⟩ := answer
    · exact appends_nothing rfl fun trace => by simp [exec, execTick, stopped]
    · exact appends_nothing rfl fun trace => by simp [exec, execTick, run, pend]
    · exact appends_nothing rfl fun trace => by simp [exec, execTick, run, free]
  | wrCtrl byte =>
    have kept : t.outTrace = s.outTrace := by obtain ⟨-, rfl⟩ | ⟨-, rfl⟩ := answer <;> rfl
    exact appends_nothing kept (execWrCtrl_outTrace_frame h)
  | wrStatus byte =>
    subst answer
    exact appends_nothing rfl fun trace => by cases bit : bitOf byte 3 <;> simp [exec, execWrStatus, bit]
  | wrThrl byte | wrThrh byte =>
    subst answer
    exact appends_nothing rfl fun trace => by cases s.run <;> simp [exec, execWrThrl, execWrThrh]
  | wrBasel | wrBaseh | wrRos | wrRop | wrRsv | rd =>
    subst answer
    exact appends_nothing rfl fun _ => rfl

/-- Settles O35: SCAN writes neither register, and the writes of RUN and THRESH need RUN = 0. -/
theorem runAndThresholdFixedUntilReset : Obligations.RunAndThresholdFixedUntilReset := by
  unfold Obligations.RunAndThresholdFixedUntilReset
  intro i s t run h notReset
  have answer := exec_inv h
  cases i with
  | reset => exact absurd rfl notReset
  | tick => obtain ⟨-, rfl⟩ | ⟨-, -, rfl⟩ | ⟨-, -, rfl⟩ := answer <;> exact ⟨run, rfl⟩
  | scan count =>
    obtain ⟨kept, thresh, -⟩ := answer.2.host_registers
    exact ⟨kept.trans run, thresh⟩
  | pwmb => obtain ⟨-, rfl⟩ | ⟨-, rfl⟩ := answer <;> exact ⟨run, rfl⟩
  | wrCtrl byte =>
    obtain ⟨-, rfl⟩ | ⟨stopped, -⟩ := answer
    · exact ⟨run, rfl⟩
    · simp [run] at stopped
  | wrThrl byte | wrThrh byte =>
    subst answer
    exact ⟨run, if_pos run⟩
  | wrStatus | wrBasel | wrBaseh | wrRos | wrRop | wrRsv | rd =>
    subst answer
    exact ⟨run, rfl⟩

/-- R31: TICKLOST keeps its value, or a TICK that finds a tick pending sets it, or RESET or the host's bit 3 clears it. -/
theorem tickLost_cases {i : Instr} {s t : State} (h : exec i s = .next t) :
    t.tickLost = s.tickLost
    ∨ ((i = .tick ∧ s.run = true ∧ s.tickPend = true) ∧ t.tickLost = true)
    ∨ ((i = .reset ∨ ∃ b, i = .wrStatus b ∧ b.getLsbD 3 = true) ∧ t.tickLost = false) := by
  have answer := exec_inv h
  cases i with
  | reset =>
    subst answer
    exact .inr (.inr ⟨.inl rfl, rfl⟩)
  | tick =>
    obtain ⟨-, rfl⟩ | ⟨run, pend, rfl⟩ | ⟨-, -, rfl⟩ := answer
    · exact .inl rfl
    · exact .inr (.inl ⟨⟨rfl, run, pend⟩, rfl⟩)
    · exact .inl rfl
  | wrStatus byte =>
    subst answer
    cases bit : bitOf byte 3
    · exact .inl rfl
    · exact .inr (.inr ⟨.inr ⟨byte, rfl, bit⟩, rfl⟩)
  | scan count =>
    obtain ⟨-, -, kept, -⟩ := answer.2.host_registers
    exact .inl kept
  | pwmb => obtain ⟨-, rfl⟩ | ⟨-, rfl⟩ := answer <;> exact .inl rfl
  | wrCtrl byte => obtain ⟨-, rfl⟩ | ⟨-, rfl⟩ := answer <;> exact .inl rfl
  | wrThrl | wrThrh | wrBasel | wrBaseh | wrRos | wrRop | wrRsv | rd =>
    subst answer
    exact .inl rfl

/-- Settles O37: each change of TICKLOST is one of the two kinds of `tickLost_cases`. -/
theorem tickLostIsSticky : Obligations.TickLostIsSticky := by
  unfold Obligations.TickLostIsSticky
  intro i s t h
  rcases tickLost_cases h with kept | ⟨lost, set⟩ | ⟨host, cleared⟩
  · rw [kept]
    exact ⟨fun off on => by simp [off] at on, fun on off => by simp [on] at off⟩
  · exact ⟨fun _ _ => lost, fun _ off => by simp [set] at off⟩
  · exact ⟨fun _ on => by simp [cleared] at on, fun _ _ => host⟩

/-- Settles O42: BASELINE is read only by a calibration, and a write of CTRL at RUN = 1 makes none. -/
theorem baselineDoesNotReachTheScan : Obligations.BaselineDoesNotReachTheScan := by
  unfold Obligations.BaselineDoesNotReachTheScan
  intro i s t v stimulus h
  have answer := exec_inv h
  obtain rfl | rfl | ⟨count, rfl⟩ | ⟨run, byte, rfl⟩ := stimulus
  · obtain ⟨stopped, rfl⟩ | ⟨run, pend, rfl⟩ | ⟨run, free, rfl⟩ := answer
    · simp [exec, execTick, stopped]
    · simp [exec, execTick, run, pend]
    · simp [exec, execTick, run, free]
  · obtain ⟨wait, rfl⟩ | ⟨ready, rfl⟩ := answer
    · simp [exec, execPwmb_eq, wait, completeStart_eq]
    · simp [exec, execPwmb_eq, ready]
  · obtain ⟨enabled, scanned⟩ := answer
    obtain ⟨events, appended, blind⟩ := scanned.outTrace_baseline_frame
    refine execScan_of_scanCase enabled ?_
    have := blind s.outTrace v
    rwa [← appended] at this
  · obtain ⟨-, rfl⟩ | ⟨stopped, -⟩ := answer
    · exact if_pos run
    · simp [run] at stopped

/-- Settles O44: State.reset is the reset registers, with an empty trace. -/
theorem resetMeetsInvariant : Obligations.ResetMeetsInvariant := by
  unfold Obligations.ResetMeetsInvariant
  refine ⟨stateInv_reset .., fun before e after split => ?_, rfl⟩
  simp [State.reset] at split

end Sys2Proof.Safety
end

section
/-! Host reads and writes: what each address reads, which address a write of a register reaches, and what a write at an address
stores (spec/20_memory.md R61, R62, R66, R67). -/

namespace Sys2Proof.Machine

@[simp] theorem lowByte_setLowByte (v : Half) (b : Byte) : lowByte (setLowByte v b) = b :=
  BitVec.extractLsb'_append_eq_right

@[simp] theorem highByte_setLowByte (v : Half) (b : Byte) : highByte (setLowByte v b) = highByte v :=
  BitVec.extractLsb'_append_eq_left

@[simp] theorem lowByte_setHighByte (v : Half) (b : Byte) : lowByte (setHighByte v b) = lowByte v :=
  BitVec.extractLsb'_append_eq_right

@[simp] theorem highByte_setHighByte (v : Half) (b : Byte) : highByte (setHighByte v b) = b :=
  BitVec.extractLsb'_append_eq_left

/-- R62, as numbers. -/
theorem lowByte_eq_ofNat (v : Half) : lowByte v = BitVec.ofNat 8 (v.toNat % 256) := by
  apply BitVec.eq_of_toNat_eq
  simp [lowByte]

theorem highByte_eq_ofNat (v : Half) : highByte v = BitVec.ofNat 8 (v.toNat / 256) := by
  apply BitVec.eq_of_toNat_eq
  simp [highByte, Nat.shiftRight_eq_div_pow]

/-- R61: STATUS bit 1 is BUSY. -/
theorem statusByte_busy (s : State) : (statusByte s).getLsbD 1 = (s.phase == .wait) := by
  refine (BitVec.getLsbD_append (i := 1)).trans ((BitVec.getLsbD_append (i := 0)).trans ?_)
  simp

/-- R202: the record of the RDs is no host register. -/
@[simp] theorem hostRead_withHostReads (s : State) (reads : List HostRead) (a : HostAddr) :
    hostRead { s with hostReads := reads } a = hostRead s a := rfl

/-- R61: RUN is read at CTRL only. -/
theorem hostRead_withRun {s : State} {run : Bool} {a : HostAddr} (other : a ≠ 0x0#4) :
    hostRead { s with run := run } a = hostRead s a := by
  simp only [hostRead]
  split
  · exact absurd (BitVec.eq_of_toNat_eq ‹_›) other
  all_goals rfl

/-- R61: TICKLOST is read at STATUS only. -/
theorem hostRead_withTickLost {s : State} {lost : Bool} {a : HostAddr} (other : a ≠ 0x1#4) :
    hostRead { s with tickLost := lost } a = hostRead s a := by
  simp only [hostRead]
  split
  case h_2 => exact absurd (BitVec.eq_of_toNat_eq ‹_›) other
  all_goals rfl

/-- R61: THRESH is read at THRL and THRH only, one byte each. -/
theorem hostRead_withThresh {s : State} {v : Half} {a : HostAddr} (low : a = 0x4#4 → lowByte v = lowByte s.thresh)
    (high : a = 0x5#4 → highByte v = highByte s.thresh) : hostRead { s with thresh := v } a = hostRead s a := by
  simp only [hostRead]
  split
  case h_5 => exact low (BitVec.eq_of_toNat_eq ‹_›)
  case h_6 => exact high (BitVec.eq_of_toNat_eq ‹_›)
  all_goals rfl

/-- R61: BASELINE is read at BASEL and BASEH only, one byte each. -/
theorem hostRead_withBaseline {s : State} {v : Half} {a : HostAddr} (low : a = 0x6#4 → lowByte v = lowByte s.baseline)
    (high : a = 0x7#4 → highByte v = highByte s.baseline) : hostRead { s with baseline := v } a = hostRead s a := by
  simp only [hostRead]
  split
  case h_7 => exact low (BitVec.eq_of_toNat_eq ‹_›)
  case h_8 => exact high (BitVec.eq_of_toNat_eq ‹_›)
  all_goals rfl

/-- R84: what an answered WR does, by the address it names; outside CTRL, STATUS, THRESH and BASELINE it does nothing (R199 to
R201). -/
theorem execDecodeWrite_inv {a : HostAddr} {b : Byte} {s t : State} (h : exec (decodeWrite a b) s = .next t) :
    (a = 0x0#4 ∧ ExecCase s t (.wrCtrl b)) ∨ (a = 0x1#4 ∧ ExecCase s t (.wrStatus b))
    ∨ (a = 0x4#4 ∧ ExecCase s t (.wrThrl b)) ∨ (a = 0x5#4 ∧ ExecCase s t (.wrThrh b))
    ∨ (a = 0x6#4 ∧ ExecCase s t (.wrBasel b)) ∨ (a = 0x7#4 ∧ ExecCase s t (.wrBaseh b))
    ∨ ((a.toNat < 4 ∨ 7 < a.toNat) ∧ t = s) := by
  have answer := exec_inv h
  unfold decodeWrite at answer
  split at answer
  case h_1 h => exact .inl ⟨BitVec.eq_of_toNat_eq h, answer⟩
  case h_2 h => exact .inr (.inl ⟨BitVec.eq_of_toNat_eq h, answer⟩)
  case h_5 h => exact .inr (.inr (.inl ⟨BitVec.eq_of_toNat_eq h, answer⟩))
  case h_6 h => exact .inr (.inr (.inr (.inl ⟨BitVec.eq_of_toNat_eq h, answer⟩)))
  case h_7 h => exact .inr (.inr (.inr (.inr (.inl ⟨BitVec.eq_of_toNat_eq h, answer⟩))))
  case h_8 h => exact .inr (.inr (.inr (.inr (.inr (.inl ⟨BitVec.eq_of_toNat_eq h, answer⟩)))))
  all_goals exact .inr (.inr (.inr (.inr (.inr (.inr ⟨by grind, answer⟩)))))

/-- R74, R86: a SCAN writes neither ROM nor parameter, and neither the refusal record nor the pending list. -/
theorem ScanCase.rom_frame {count : Half} {s t : State} (h : ScanCase count s t) :
    t.tone = s.tone ∧ t.config = s.config ∧ t.stimuli = s.stimuli ∧ t.refusals = s.refusals := by
  obtain ⟨-, -, rfl⟩ | ⟨-, -, rfl⟩ | ⟨-, -, rfl⟩ | ⟨-, -, rfl⟩ := h <;> exact ⟨rfl, rfl, rfl, rfl⟩

end Sys2Proof.Machine
end

section
/-! The statements of spec/20_memory.md: torn reads, what a host write reaches, the read-only state, and reads without effect. -/

namespace Sys2Proof.Machine

/-- Settles O29: the first RD records the old low byte, the start programs TONE[SELCH] and waits, and the second RD then records
the new high byte. -/
theorem tornPeriodRead : Obligations.TornPeriodRead := by
  unfold Obligations.TornPeriodRead
  intro s count run ready pend touch other
  refine ⟨_, startTone s.selch { s with hostReads := _ }, _, rfl,
    execScan_of_scanCase ⟨run, ready, pend⟩ (.inl ⟨touch, other, rfl⟩), rfl, ?_, ?_⟩
  · simp [hostRead, startTone_eq, lowByte_eq_ofNat, highByte_eq_ofNat]
  · exact statusByte_busy _

/-- Settles O32: each row stores to the register its address reads, and leaves the other byte of a 16-bit register alone. The cases
are those of `execDecodeWrite_inv`, CTRL's twice: ignored while RUN = 1, and with its two effects while RUN = 0. -/
theorem hostWriteChangesOwnByte : Obligations.HostWriteChangesOwnByte := by
  unfold Obligations.HostWriteChangesOwnByte
  intro s t a b h
  obtain ⟨rfl, ⟨-, rfl⟩ | ⟨-, rfl⟩⟩ | ⟨rfl, rfl⟩ | ⟨rfl, rfl⟩ | ⟨rfl, rfl⟩ | ⟨rfl, rfl⟩ | ⟨rfl, rfl⟩ | ⟨apart, rfl⟩ :=
    execDecodeWrite_inv h
  · exact ⟨fun _ _ _ => rfl, by simp⟩
  · refine ⟨fun a' ne notThresh => ?_, by simp⟩
    have low : a' ≠ 0x4#4 := fun h => notThresh ⟨rfl, .inl h⟩
    have high : a' ≠ 0x5#4 := fun h => notThresh ⟨rfl, .inr h⟩
    exact (hostRead_withThresh (s := { s with run := bitOf b 0 }) (absurd · low) (absurd · high)).trans (hostRead_withRun ne)
  · exact ⟨fun a' ne _ => hostRead_withTickLost ne, by simp⟩
  · refine ⟨fun a' ne _ => hostRead_withThresh (absurd · ne) fun _ => by split_ifs <;> simp, fun stored => ?_⟩
    have stopped : s.run = false := by simpa using stored
    simp [hostRead, stopped]
  · refine ⟨fun a' ne _ => hostRead_withThresh (fun _ => by split_ifs <;> simp) (absurd · ne), fun stored => ?_⟩
    have stopped : s.run = false := by simpa using stored
    simp [hostRead, stopped]
  · exact ⟨fun a' ne _ => hostRead_withBaseline (absurd · ne) fun _ => highByte_setLowByte .., fun _ => lowByte_setLowByte ..⟩
  · exact ⟨fun a' ne _ => hostRead_withBaseline (fun _ => lowByte_setHighByte ..) (absurd · ne), fun _ => highByte_setHighByte ..⟩
  · refine ⟨fun _ _ _ => rfl, fun stored => ?_⟩
    obtain rfl | rfl | ⟨-, rfl | rfl⟩ := stored <;> simp at apart

/-- Settles O33: RESET copies these four fields, a SCAN leaves them alone, and no other stimulus has a case that writes one. -/
theorem romAndParametersNeverChange : Obligations.RomAndParametersNeverChange := by
  unfold Obligations.RomAndParametersNeverChange
  intro i s t h
  have answer := exec_inv h
  cases i with
  | scan count => exact answer.2.rom_frame
  | tick => obtain ⟨-, rfl⟩ | ⟨-, -, rfl⟩ | ⟨-, -, rfl⟩ := answer <;> exact ⟨rfl, rfl, rfl, rfl⟩
  | pwmb => obtain ⟨-, rfl⟩ | ⟨-, rfl⟩ := answer <;> exact ⟨rfl, rfl, rfl, rfl⟩
  | wrCtrl byte => obtain ⟨-, rfl⟩ | ⟨-, rfl⟩ := answer <;> exact ⟨rfl, rfl, rfl, rfl⟩
  | reset | wrStatus | wrThrl | wrThrh | wrBasel | wrBaseh | wrRos | wrRop | wrRsv | rd =>
    subst answer
    exact ⟨rfl, rfl, rfl, rfl⟩

/-- Settles O28: an RD appends to the record of the RDs, which no address reads. -/
theorem readsAreIdempotent : Obligations.ReadsAreIdempotent := by
  unfold Obligations.ReadsAreIdempotent
  intro s a
  exact ⟨_, _, rfl, rfl, ⟨hostRead s a, rfl, by simp⟩, hostRead_withHostReads s _⟩

end Sys2Proof.Machine
end

section
/-! The encoding (spec/30_encoding.md R80 to R86): the decoder's answers as if/else chains on the fields' numbers, which words it
accepts and refuses, and a word as the sum of its shifted fields. -/

namespace Sys2Proof

@[simp] theorem acceptIf_eq_ok_iff {zeros : Bool} {i j : Instr} : acceptIf zeros i = .ok j ↔ zeros = true ∧ i = j := by
  cases zeros <;> simp [acceptIf]

@[simp] theorem acceptIf_eq_error_iff {zeros : Bool} {i : Instr} {r : RefusalReason} :
    acceptIf zeros i = .error r ↔ zeros = false ∧ r = .nonZeroOperand := by
  cases zeros <;> simp [acceptIf, eq_comm]

/-- R84: the address ranges of the WR rows. -/
theorem decodeWrite_eq (addr : HostAddr) (byte : Byte) :
    decodeWrite addr byte =
      if addr.toNat = 0 then .wrCtrl byte
      else if addr.toNat = 1 then .wrStatus byte
      else if addr.toNat = 2 ∨ addr.toNat = 3 then .wrRos addr byte
      else if addr.toNat = 4 then .wrThrl byte
      else if addr.toNat = 5 then .wrThrh byte
      else if addr.toNat = 6 then .wrBasel byte
      else if addr.toNat = 7 then .wrBaseh byte
      else if 8 ≤ addr.toNat ∧ addr.toNat ≤ 11 then .wrRop addr byte
      else .wrRsv addr byte := by
  unfold decodeWrite
  split
  case h_13 =>
    simp only [imp_false] at *
    have high : ¬ (8 ≤ addr.toNat ∧ addr.toNat ≤ 11) := by omega
    simp [*]
  all_goals simp [*]

/-- R84, by the number of OP. -/
theorem decode_eq (w : StimWord) :
    decode w =
      if fieldRsv w ≠ 0#8 then .error .reservedBits
      else if (fieldOp w).toNat = 0 then acceptIf (fieldAddr w == 0#4 && fieldData w == 0#16) .reset
      else if (fieldOp w).toNat = 1 then acceptIf (fieldAddr w == 0#4 && fieldData w == 0#16) .tick
      else if (fieldOp w).toNat = 2 then acceptIf (fieldAddr w == 0#4) (.scan (fieldData w))
      else if (fieldOp w).toNat = 3 then acceptIf (fieldAddr w == 0#4 && fieldData w == 0#16) .pwmb
      else if (fieldOp w).toNat = 4 then acceptIf (fieldDataHigh w == 0#8) (decodeWrite (fieldAddr w) (fieldByte w))
      else if (fieldOp w).toNat = 5 then acceptIf (fieldData w == 0#16) (.rd (fieldAddr w))
      else .error .reservedOp := by
  unfold decode
  split
  · rfl
  · split
    case h_7 =>
      simp only [imp_false] at *
      simp [*]
    all_goals simp [*]

/-- R84: an accepted word has zero reserved bits, one of the six OPs, and zeros where its OP requires them. -/
theorem decode_ok {w : StimWord} {i : Instr} (h : decode w = .ok i) :
    fieldRsv w = 0#8 ∧
    ((fieldOp w = 0#4 ∧ fieldAddr w = 0#4 ∧ fieldData w = 0#16 ∧ i = .reset)
    ∨ (fieldOp w = 1#4 ∧ fieldAddr w = 0#4 ∧ fieldData w = 0#16 ∧ i = .tick)
    ∨ (fieldOp w = 2#4 ∧ fieldAddr w = 0#4 ∧ i = .scan (fieldData w))
    ∨ (fieldOp w = 3#4 ∧ fieldAddr w = 0#4 ∧ fieldData w = 0#16 ∧ i = .pwmb)
    ∨ (fieldOp w = 4#4 ∧ fieldDataHigh w = 0#8 ∧ i = decodeWrite (fieldAddr w) (fieldByte w))
    ∨ (fieldOp w = 5#4 ∧ fieldData w = 0#16 ∧ i = .rd (fieldAddr w))) := by
  rw [decode_eq] at h
  split_ifs at h with rsv op op op op op op <;>
    simp only [acceptIf_eq_ok_iff, Bool.and_eq_true, beq_iff_eq] at h <;>
    simp [(BitVec.toNat_eq_nat.mp op).2, h, not_not.mp rsv]

/-- R86: exactly the words that break R80. -/
theorem decode_refused_iff (w : StimWord) : (∃ r, decode w = .error r) ↔
    (fieldRsv w ≠ 0#8 ∨ 6 ≤ (fieldOp w).toNat
      ∨ ((fieldOp w).toNat ≤ 3 ∧ fieldAddr w ≠ 0#4)
      ∨ ((fieldOp w).toNat ≠ 2 ∧ (fieldOp w).toNat ≠ 4 ∧ fieldData w ≠ 0#16)
      ∨ ((fieldOp w).toNat = 4 ∧ fieldDataHigh w ≠ 0#8)) := by
  rw [decode_eq]
  split_ifs with rsv op op op op op op
  case neg =>
    have reserved : 6 ≤ (fieldOp w).toNat := by omega
    simp [reserved]
  all_goals simp [*, imp_iff_not_or]

/-! The WR rows: each keeps the address and the byte of its word, and a well-formed term of a row is the one its address selects. -/

@[simp] theorem encode_decodeWrite (addr : HostAddr) (byte : Byte) : encode (decodeWrite addr byte) = writeWord addr byte := by
  unfold decodeWrite
  split <;> simp only [encode]
  all_goals rename_i a; rw [(BitVec.toNat_eq_nat.mp a).2]

theorem wellFormed_decodeWrite (addr : HostAddr) (byte : Byte) : WellFormed (decodeWrite addr byte) = true := by
  rw [decodeWrite_eq]
  split_ifs <;> simp [WellFormed, BitVec.le_def, BitVec.toNat_eq] <;> omega

theorem decodeWrite_ros {addr : HostAddr} {byte : Byte} (wf : WellFormed (.wrRos addr byte) = true) :
    decodeWrite addr byte = .wrRos addr byte := by
  have range : addr.toNat = 2 ∨ addr.toNat = 3 := by simpa [WellFormed, BitVec.toNat_eq] using wf
  rw [decodeWrite_eq]
  simp (disch := omega) only [if_pos, if_neg]

theorem decodeWrite_rop {addr : HostAddr} {byte : Byte} (wf : WellFormed (.wrRop addr byte) = true) :
    decodeWrite addr byte = .wrRop addr byte := by
  have range : 8 ≤ addr.toNat ∧ addr.toNat ≤ 11 := by simpa [WellFormed, BitVec.le_def] using wf
  rw [decodeWrite_eq]
  simp (disch := omega) only [if_pos, if_neg]

theorem decodeWrite_rsv {addr : HostAddr} {byte : Byte} (wf : WellFormed (.wrRsv addr byte) = true) :
    decodeWrite addr byte = .wrRsv addr byte := by
  have range : 12 ≤ addr.toNat := by simpa [WellFormed, BitVec.le_def] using wf
  rw [decodeWrite_eq]
  simp (disch := omega) only [if_neg]

/-- R80: DATA is {DATA[15:8], DATA[7:0]}. -/
theorem fieldData_eq_append (w : StimWord) : fieldData w = fieldDataHigh w ++ fieldByte w :=
  (BitVec.extractLsb'_append_extractLsb'_eq_extractLsb' (start₁ := 0) (len₁ := 8) (len₂ := 8) rfl).symm

theorem ofNat_data_eq_fieldByte (w : StimWord) : BitVec.ofNat 8 (w.toNat % 2 ^ 16) = fieldByte w := by
  obtain ⟨-, -, -, -, byte, -⟩ := fields_toNat w
  apply BitVec.eq_of_toNat_eq
  rw [byte, BitVec.toNat_ofNat]
  omega

/-- R80: the fields of a word, each shifted to its place. -/
theorem wordOf_eq_or (op : BitVec 4) (addr : HostAddr) (data : Half) :
    wordOf op addr data = op.setWidth 32 <<< 28 ||| addr.setWidth 32 <<< 24 ||| data.setWidth 32 := by
  apply BitVec.eq_of_getLsbD_eq
  intro k _
  rw [wordOf_getLsbD]
  simp only [BitVec.getLsbD_or, BitVec.getLsbD_shiftLeft, BitVec.getLsbD_setWidth]
  split_ifs <;> grind

theorem zeroHigh_eq_setWidth (byte : Byte) : (0#8 ++ byte : Half) = byte.setWidth 16 :=
  (BitVec.setWidth_eq_append (by decide)).symm

/-- R89: the encoding column of WR, for operands in range. -/
theorem writeWord_ofNat {a b : Nat} (ha : a ≤ 15) (hb : b ≤ 255) :
    writeWord (BitVec.ofNat 4 a) (BitVec.ofNat 8 b)
      = 0x40000000#32 ||| (BitVec.ofNat 32 a <<< 24) ||| BitVec.ofNat 32 b := by
  rw [writeWord, wordOf_eq_or, zeroHigh_eq_setWidth]
  simp (disch := omega) only [BitVec.setWidth_ofNat_of_le_of_lt]
  rfl

end Sys2Proof
end

section
/-! The rows of the opcode table as match and mask (spec/30_encoding.md R84): no word lies in two rows, and a row fixes at 0 every
field that R80 requires to be 0 for its OP. -/

namespace Sys2Proof

namespace TableRow

theorem covers_iff {r : TableRow} {w : StimWord} : r.covers w = true ↔ w &&& r.mask = r.pattern := by
  simp [TableRow.covers]

theorem field_eq_of_covers {r : TableRow} {w : StimWord} {start len : Nat} (h : r.covers w = true)
    (mask : r.mask.extractLsb' start len = BitVec.allOnes len) :
    w.extractLsb' start len = r.pattern.extractLsb' start len := by
  rw [← covers_iff.mp h, BitVec.extractLsb'_and, mask, BitVec.and_allOnes]

/-- The row requires the `len` bits from `start` on to be 0. -/
abbrev RequiresZero (r : TableRow) (start len : Nat) : Prop :=
  r.mask.extractLsb' start len = BitVec.allOnes len ∧ r.pattern.extractLsb' start len = 0#len

theorem RequiresZero.field_eq_zero {r : TableRow} {w : StimWord} {start len : Nat} (zero : r.RequiresZero start len)
    (h : r.covers w = true) : w.extractLsb' start len = 0#len :=
  (field_eq_of_covers h zero.1).trans zero.2

end TableRow

theorem opcodeTable_nodup : opcodeTable.Nodup := by decide

theorem row_mem_opcodeTable (i : Instr) : i.row ∈ opcodeTable := by
  cases i <;> simp [opcodeTable, Instr.row]

/-- Two rows that agree on the bits both look at are one row. -/
theorem opcodeTable_disjoint : ∀ r ∈ opcodeTable, ∀ r' ∈ opcodeTable,
    r.pattern &&& r'.mask = r'.pattern &&& r.mask → r = r' := by
  decide

/-- R80 as the table has it: RSV, then OP, ADDR, DATA and DATA[15:8]. -/
theorem opcodeTable_requiresZero : ∀ r ∈ opcodeTable,
    r.RequiresZero 16 8
    ∧ (fieldOp r.mask = BitVec.allOnes 4 ∧ (fieldOp r.pattern).toNat < 6)
    ∧ ((fieldOp r.pattern).toNat ≤ 3 → r.RequiresZero 24 4)
    ∧ ((fieldOp r.pattern).toNat ≠ 2 → (fieldOp r.pattern).toNat ≠ 4 → r.RequiresZero 0 16)
    ∧ ((fieldOp r.pattern).toNat = 4 → r.RequiresZero 8 8) := by
  decide

theorem row_unique {r r' : TableRow} {w : StimWord} (hr : r ∈ opcodeTable) (hr' : r' ∈ opcodeTable)
    (h : r.covers w = true) (h' : r'.covers w = true) : r = r' := by
  refine opcodeTable_disjoint r hr r' hr' ?_
  rw [← TableRow.covers_iff.mp h, ← TableRow.covers_iff.mp h']
  ac_rfl

/-- A refused word breaks R80 in a field, and a row's words do not. -/
theorem not_covers_of_refused {r : TableRow} {w : StimWord} {reason : RefusalReason} (hr : r ∈ opcodeTable)
    (refused : decode w = .error reason) : ¬ r.covers w = true := by
  intro h
  obtain ⟨rsv, ⟨opMask, opBound⟩, addr, data, high⟩ := opcodeTable_requiresZero r hr
  have op : fieldOp w = fieldOp r.pattern := TableRow.field_eq_of_covers h opMask
  rw [← op] at opBound addr data high
  obtain ne | big | ⟨le3, ne⟩ | ⟨ne2, ne4, ne⟩ | ⟨eq4, ne⟩ := (decode_refused_iff w).mp ⟨reason, refused⟩
  · exact ne (rsv.field_eq_zero h)
  · omega
  · exact ne ((addr le3).field_eq_zero h)
  · exact ne ((data ne2 ne4).field_eq_zero h)
  · exact ne ((high eq4).field_eq_zero h)

theorem row_covers_encode (i : Instr) (wf : WellFormed i = true) : i.row.covers (encode i) = true := by
  cases i with
  | reset => exact Laws.TableRow.reset wf
  | tick => exact Laws.TableRow.tick wf
  | scan count => exact Laws.TableRow.scan count wf
  | pwmb => exact Laws.TableRow.pwmb wf
  | wrCtrl byte => exact Laws.TableRow.wrCtrl byte wf
  | wrStatus byte => exact Laws.TableRow.wrStatus byte wf
  | wrRos addr byte => exact Laws.TableRow.wrRos addr byte wf
  | wrThrl byte => exact Laws.TableRow.wrThrl byte wf
  | wrThrh byte => exact Laws.TableRow.wrThrh byte wf
  | wrBasel byte => exact Laws.TableRow.wrBasel byte wf
  | wrBaseh byte => exact Laws.TableRow.wrBaseh byte wf
  | wrRop addr byte => exact Laws.TableRow.wrRop addr byte wf
  | wrRsv addr byte => exact Laws.TableRow.wrRsv addr byte wf
  | rd addr => exact Laws.TableRow.rd addr wf

end Sys2Proof
end

section
/-! The statements of spec/30_encoding.md about words: the two round trips, R84's map, the table's rows and the assembler. -/

namespace Sys2Proof

open Machine

/-- Settles O1: the words of events, SCAN and RD give their fields back, and a WR's word gives the row its address selects. -/
theorem decodeOfEncode : Obligations.DecodeOfEncode := by
  unfold Obligations.DecodeOfEncode
  intro i wf
  cases i with
  | reset | tick | pwmb => decide
  | scan count => simp [encode, decode]
  | rd addr => simp [encode, decode]
  | wrCtrl byte | wrStatus byte | wrThrl byte | wrThrh byte | wrBasel byte | wrBaseh byte => exact decode_writeWord _ byte
  | wrRos addr byte => exact (decode_writeWord addr byte).trans (congrArg _ (decodeWrite_ros wf))
  | wrRop addr byte => exact (decode_writeWord addr byte).trans (congrArg _ (decodeWrite_rop wf))
  | wrRsv addr byte => exact (decode_writeWord addr byte).trans (congrArg _ (decodeWrite_rsv wf))

/-- Settles O2: an accepted word is put together from its fields, which its case either fixes or hands to the stimulus. -/
theorem encodeOfDecode : Obligations.EncodeOfDecode := by
  unfold Obligations.EncodeOfDecode
  intro w i accepted
  obtain ⟨rsv, row⟩ := decode_ok accepted
  rw [← wordOf_fields rsv]
  obtain ⟨op, addr, data, rfl⟩ | ⟨op, addr, data, rfl⟩ | ⟨op, addr, rfl⟩ | ⟨op, addr, data, rfl⟩ | ⟨op, high, rfl⟩
    | ⟨op, data, rfl⟩ := row
  · exact ⟨rfl, by rw [op, addr, data, encode]⟩
  · exact ⟨rfl, by rw [op, addr, data, encode]⟩
  · exact ⟨rfl, by rw [op, addr, encode]⟩
  · exact ⟨rfl, by rw [op, addr, data, encode]⟩
  · exact ⟨wellFormed_decodeWrite _ _, by rw [op, fieldData_eq_append, high, encode_decodeWrite, writeWord]⟩
  · exact ⟨rfl, by rw [op, data, encode]⟩

/-- Settles O3: the fields are the numbers of R84, and the decoder's two chains are its chain. -/
theorem decodeIsTheOpcodeMap : Obligations.DecodeIsTheOpcodeMap := by
  unfold Obligations.DecodeIsTheOpcodeMap
  intro w
  obtain ⟨op, addr, rsv, data, -, high⟩ := fields_toNat w
  dsimp only
  rw [ofNat_data_eq_fieldByte, ← high, ← op, ← addr, ← rsv, ← data]
  simp [decode_eq, acceptIf, decodeWrite_eq, BitVec.toNat_eq, apply_ite (Except.ok (ε := RefusalReason))]

/-- Settles O4: an accepted word is its stimulus's encoding, so a word of that row, and of no other. -/
theorem everyWordHasOneTableRow : Obligations.EveryWordHasOneTableRow := by
  unfold Obligations.EveryWordHasOneTableRow
  intro w
  constructor
  · intro i accepted
    obtain ⟨wf, word⟩ := encodeOfDecode w i accepted
    have own : i.row.covers w = true := word ▸ row_covers_encode i wf
    have only : ∀ r ∈ opcodeTable, r.covers w = (r == i.row) := fun r hr => Bool.eq_iff_iff.mpr
      ⟨fun h => beq_iff_eq.mpr (row_unique hr (row_mem_opcodeTable i) h own), fun h => beq_iff_eq.mp h ▸ own⟩
    rw [List.filter_congr only, List.filter_beq, List.count_eq_one_of_mem opcodeTable_nodup (row_mem_opcodeTable i)]
    rfl
  · intro reason refused
    exact List.filter_eq_nil_iff.mpr fun r hr => not_covers_of_refused hr refused

/-- Settles O5: an operand in range fills its field, so the assembler's shifted sum is the word of the fields. -/
theorem assemblerForms : Obligations.AssemblerForms := by
  unfold Obligations.AssemblerForms
  refine ⟨by decide, by decide, by decide, fun n => ?_, fun r b => ?_, fun r => ?_⟩
  · simp only [assemble]
    split_ifs with range
    · rw [encode, wordOf_eq_or]
      simp (disch := omega) [BitVec.setWidth_ofNat_of_le_of_lt]
    · rfl
  · simp only [assemble]
    split_ifs with range
    · rw [encode_decodeWrite, writeWord_ofNat range.1 range.2]
    · rfl
  · simp only [assemble]
    split_ifs with range
    · rw [encode, wordOf_eq_or]
      simp (disch := omega) [BitVec.setWidth_ofNat_of_le_of_lt]
    · rfl

end Sys2Proof
end

section
/-! The words of a run (spec/30_encoding.md R83, R84, R86): what the step does with an accepted word and with a refused one, that the
reasons recorded stay, and the two bytes of a 16-bit register. -/

namespace Sys2Proof.Machine

theorem fetch_of_decode_ok {s : State} {w : StimWord} {rest : List StimWord} {i : Instr} (valid : s.config.valid = true)
    (pending : s.stimuli = w :: rest) (accepted : decode w = .ok i) :
    fetch s = .next (i, { s with stimuli := rest }) := by
  simp [fetch, valid, pending, accepted]

theorem fetch_of_decode_error {s : State} {w : StimWord} {rest : List StimWord} {r : RefusalReason}
    (valid : s.config.valid = true) (pending : s.stimuli = w :: rest) (refused : decode w = .error r) :
    fetch s = .refused (.malformed r (recordRefusal r { s with stimuli := rest })) := by
  simp [fetch, valid, pending, refused]

theorem step_of_fetch_next {s s' : State} {i : Instr} (h : fetch s = .next (i, s')) : step s = exec i s' := by
  simp [step, h]

theorem marked_iff (s : State) : s.marked = true ↔ s.refusals ≠ [] := by
  simp [State.marked]

theorem runWords_succ_inv {k : Nat} {s t : State} (h : runWords (k + 1) s = .next t) :
    ∃ u, runStep s = .next u ∧ runWords k u = .next t := by
  unfold runWords Host.Core.run at h
  split at h
  · exact ⟨_, ‹_›, h⟩
  · cases h
  · cases h

/-- R86, R190: no stimulus writes the reasons, and a refused word appends its own. -/
theorem runStep_refusals {s t : State} (h : runStep s = .next t) : s.refusals <+: t.refusals := by
  obtain stepped | ⟨w, rest, reason, -, -, rfl⟩ := runStep_inv h
  · obtain ⟨-, i, w, rest, -, -, executed⟩ := step_inv stepped
    obtain ⟨-, -, -, same⟩ := romAndParametersNeverChange i _ t executed
    exact same ▸ List.prefix_rfl
  · exact List.prefix_append _ _

theorem runWords_refusals {k : Nat} {s t : State} (h : runWords k s = .next t) : s.refusals <+: t.refusals := by
  induction k generalizing s with
  | zero =>
    cases h
    exact List.prefix_rfl
  | succ k ih =>
    obtain ⟨u, first, later⟩ := runWords_succ_inv h
    exact (runStep_refusals first).trans (ih later)

/-- R83: {high byte, low byte}. -/
theorem highByte_lowByte_toNat (v : Half) : (highByte v).toNat * 256 + (lowByte v).toNat = v.toNat := by
  have := v.isLt
  rw [highByte_eq_ofNat, lowByte_eq_ofNat, BitVec.toNat_ofNat, BitVec.toNat_ofNat]
  omega

/-- Settles O7: the fetch takes the oldest word and hands its stimulus, well formed by O2, to `exec`. -/
theorem stepRunsDecoded : Obligations.StepRunsDecoded := by
  unfold Obligations.StepRunsDecoded
  intro s w rest i valid pending accepted
  obtain ⟨wf, -⟩ := encodeOfDecode w i accepted
  exact ⟨wf, step_of_fetch_next (fetch_of_decode_ok valid pending accepted)⟩

/-- Settles O8: the refusal is the fetch's, and along a run the list of reasons only grows, so a set mark stays set. -/
theorem malformedWordIsRefusedForGood : Obligations.MalformedWordIsRefusedForGood := by
  unfold Obligations.MalformedWordIsRefusedForGood
  refine ⟨decode_refused_iff, fun s w rest r valid pending refused => ?_, fun s t k run => ?_⟩
  · exact step_of_fetch_refused (fetch_of_decode_error valid pending refused)
  · obtain ⟨later, kept⟩ := runWords_refusals run
    refine ⟨⟨later, kept.symm⟩, fun marked => ?_⟩
    rw [marked_iff] at *
    simp [← kept, marked]

/-- Settles O30: the host reads the high byte at the odd address and the low byte at the even one. -/
theorem sixteenBitRegistersLittleEndian : Obligations.SixteenBitRegistersLittleEndian := by
  unfold Obligations.SixteenBitRegistersLittleEndian
  intro s
  exact ⟨highByte_lowByte_toNat s.thresh, highByte_lowByte_toNat s.baseline, highByte_lowByte_toNat s.pwmPeriod,
    highByte_lowByte_toNat s.pwmDuty⟩

end Sys2Proof.Machine
end

section
/-! When a SCAN is stuck, and which stimulus makes each of its three conditions true (spec/40_channel_scanner.md R106). -/

namespace Sys2Proof.Machine

theorem execScan_stuck_iff (count : Half) (s : State) :
    execScan count s = .fault .scanStuck ↔ ¬ (s.run = true ∧ s.phase = .ready ∧ s.tickPend = true) := by
  rw [← scanEnabled_iff, execScan]
  split_ifs with enabled <;> simp [enabled]

theorem execScan_answers (count : Half) {s : State} (enabled : s.run = true ∧ s.phase = .ready ∧ s.tickPend = true) :
    ∃ t, execScan count s = .next t :=
  ⟨_, if_pos ((scanEnabled_iff s).mpr enabled)⟩

/-- R14, R192: only a calibration by a fraction out of range stops a write of CTRL. -/
theorem execWrCtrl_answers (byte : Byte) {s : State} (valid : s.config.valid = true) : ∃ t, execWrCtrl byte s = .next t := by
  unfold execWrCtrl
  split_ifs with running out
  · exact ⟨_, rfl⟩
  · simp [valid] at out
  all_goals exact ⟨_, rfl⟩

/-- R192: after a write of CTRL with bit 0 the machine runs, whether it did before or not. -/
theorem execWrCtrl_run {byte : Byte} {s t : State} (bit : bitOf byte 0 = true) (h : execWrCtrl byte s = .next t) :
    t.run = true := by
  obtain ⟨run, rfl⟩ | ⟨-, rfl⟩ := execWrCtrl_inv h
  · exact run
  · exact bit

/-- R170, R174: after a TICK at RUN = 1 a tick is pending, this one or an earlier one. -/
theorem execTick_tickPend {s t : State} (run : s.run = true) (h : execTick s = .next t) : t.tickPend = true := by
  obtain ⟨stopped, -⟩ | ⟨-, pend, rfl⟩ | ⟨-, -, rfl⟩ := execTick_inv h
  · simp [run] at stopped
  · exact pend
  · rfl

/-- R151: no WAIT outlives a boundary. -/
theorem execPwmb_phase {s t : State} (h : execPwmb s = .next t) : t.phase = .ready := by
  obtain ⟨-, rfl⟩ | ⟨ready, rfl⟩ := execPwmb_inv h
  · rw [completeStart_eq]
  · exact ready

/-- Settles O14: SCAN looks at its three conditions only, and WR CTRL, TICK and PWMB each make one of them true. -/
theorem scanStuckExactly : Obligations.ScanStuckExactly := by
  unfold Obligations.ScanStuckExactly
  refine ⟨fun s count => ⟨execScan_stuck_iff count s, execScan_answers count⟩, fun s b valid bit => ?_, fun s run => ?_,
    fun s => ?_⟩
  · obtain ⟨t, answered⟩ := execWrCtrl_answers b valid
    exact ⟨t, answered, execWrCtrl_run bit answered⟩
  · exact ⟨_, rfl, execTick_tickPend run rfl⟩
  · exact ⟨_, rfl, execPwmb_phase rfl⟩

end Sys2Proof.Machine
end

section
/-! The round robin (spec/40_channel_scanner.md R102, R105): SELCH is written by `finish` alone, and a `finish` ends the tick. -/

namespace Sys2Proof.Machine

/-- From `s` to `t` a tick ends (43_tick_dispatcher.md R171): one advance of SELCH, and its two events last in the trace. -/
def TickEnds (s t : State) : Prop :=
  t.selch = s.selch + 1 ∧ t.tickPend = false ∧ ∃ events, t.outTrace = s.outTrace ++ events ++ [.chsel t.selch, .cntClear]

/-- R171: a tick ends when `finish` comes after writes that appended `events` and left SELCH alone. -/
theorem tickEnds_finish {s written : State} (events : List OutEvent) (selch : written.selch = s.selch)
    (trace : written.outTrace = s.outTrace ++ events) : TickEnds s (finish written) := by
  rw [finish_eq]
  exact ⟨congrArg (· + 1) selch, rfl, events, by rw [trace]⟩

/-- R100: an answered SCAN leaves the tick to a start sequence, or ends it. -/
theorem ScanCase.selch_cases {count : Half} {s t : State} (h : ScanCase count s t) :
    (t.selch = s.selch ∧ t.tickPend = s.tickPend) ∨ TickEnds s t := by
  obtain ⟨-, -, rfl⟩ | ⟨-, -, rfl⟩ | ⟨-, -, rfl⟩ | ⟨-, -, rfl⟩ := h
  · exact .inl ⟨rfl, rfl⟩
  · exact .inr (tickEnds_finish [] rfl (List.append_nil _).symm)
  · exact .inr (tickEnds_finish [] rfl (List.append_nil _).symm)
  · exact .inr (tickEnds_finish [.indicator false, .pwmEn false] rfl rfl)

/-- R151: the boundary that completes a start sequence ends its tick. -/
theorem tickEnds_completeStart (s : State) : TickEnds s (completeStart s) :=
  tickEnds_finish [.pwmEn true] rfl rfl

/-- Settles O38: a SCAN, or the PWMB that ends a WAIT, may end a tick; TICK can only set TICKPEND, the host writes neither. -/
theorem oneAdvancePerProcessedTick : Obligations.OneAdvancePerProcessedTick := by
  unfold Obligations.OneAdvancePerProcessedTick
  intro i s t h notReset
  have answer := exec_inv h
  cases i with
  | reset => exact absurd rfl notReset
  | scan count =>
    obtain ⟨-, scanned⟩ := answer
    obtain ⟨selch, pend⟩ | ends := scanned.selch_cases
    · exact .inl ⟨selch, pend.trans⟩
    · exact .inr ends
  | pwmb =>
    obtain ⟨-, rfl⟩ | ⟨-, rfl⟩ := answer
    · exact .inr (tickEnds_completeStart s)
    · exact .inl ⟨rfl, id⟩
  | tick =>
    obtain ⟨-, rfl⟩ | ⟨-, -, rfl⟩ | ⟨-, -, rfl⟩ := answer
    · exact .inl ⟨rfl, id⟩
    · exact .inl ⟨rfl, id⟩
    · exact .inl ⟨rfl, fun _ => rfl⟩
  | wrCtrl byte => obtain ⟨-, rfl⟩ | ⟨-, rfl⟩ := answer <;> exact .inl ⟨rfl, id⟩
  | wrStatus | wrRos | wrThrl | wrThrh | wrBasel | wrBaseh | wrRop | wrRsv | rd =>
    subst answer
    exact .inl ⟨rfl, id⟩

end Sys2Proof.Machine
end

section
/-! A run over ticks without a touch (spec/30_encoding.md R90, spec/40_channel_scanner.md R105): what one such tick does to an
idling machine, and the round robin over any number of them. -/

namespace Sys2Proof.Safety

open Sys2Proof Sys2Proof.Machine

/-- A run takes the word of a well-formed stimulus by executing that stimulus, and goes on from its answer. -/
theorem run_encode {s t : State} {i : Instr} {rest : List StimWord} (k : Nat) (wf : WellFormed i = true)
    (valid : s.config.valid = true) (pending : s.stimuli = encode i :: rest)
    (executed : exec i { s with stimuli := rest } = .next t) :
    Host.Core.run Sys2Proof.core (k + 1) s = Host.Core.run Sys2Proof.core k t := by
  obtain ⟨-, steps⟩ := stepRunsDecoded s (encode i) rest i valid pending (decodeOfEncode i wf)
  have stepped : Sys2Proof.core.step s = .next t := steps.trans executed
  simp only [Host.Core.run, stepped]

/-- R121: the no-touch branch writes IDLECNT and the outputs of a tone that stops, and nothing that a scan looks at. -/
theorem noteIdle_frame (s : State) :
    (noteIdle s).selch = s.selch ∧ (noteIdle s).thresh = s.thresh ∧ (noteIdle s).run = s.run
      ∧ (noteIdle s).phase = s.phase ∧ (noteIdle s).config = s.config ∧ (noteIdle s).stimuli = s.stimuli := by
  obtain ⟨-, e⟩ | ⟨-, e⟩ := noteIdle_cases s <;> rw [e] <;> exact ⟨rfl, rfl, rfl, rfl, rfl, rfl⟩

/-- R171: the end of a tick clears TICKPEND, which the no-touch branch does not read. -/
theorem finish_noteIdle_tickPend (s : State) (pend : Bool) :
    finish (noteIdle { s with tickPend := pend }) = finish (noteIdle s) := by
  simp only [noteIdle]
  split_ifs <;> rfl

/-- R100, R121: an enabled SCAN of a count that is no touch takes the no-touch branch and ends the tick. -/
theorem execScan_noTouch {s : State} {count : Half} (enabled : s.run = true ∧ s.phase = .ready ∧ s.tickPend = true)
    (idle : s.thresh.toNat ≤ count.toNat) : execScan count s = .next (finish (noteIdle s)) := by
  obtain ⟨t, answered⟩ := execScan_answers count enabled
  have noTouch : ¬ count < s.thresh := Nat.not_lt.mpr idle
  obtain ⟨-, ⟨touch, -⟩ | ⟨touch, -⟩ | ⟨-, rfl⟩⟩ := execScan_cases answered
  · exact absurd touch noTouch
  · exact absurd touch noTouch
  · exact answered

/-- R90: the two words of a tick without a touch, presented to an idling machine. -/
theorem run_tickScan_noTouch {s : State} {count : Half} {rest : List StimWord} (k : Nat) (idling : Idling s)
    (idle : s.thresh.toNat ≤ count.toNat) (pending : s.stimuli = tickScan count ++ rest) :
    Host.Core.run Sys2Proof.core (k + 2) s = Host.Core.run Sys2Proof.core k (finish (noteIdle { s with stimuli := rest })) := by
  obtain ⟨valid, run, ready, free⟩ := idling
  have ticked : exec .tick { s with stimuli := encode (.scan count) :: rest }
      = .next { s with stimuli := encode (.scan count) :: rest, tickPend := true } := by
    simp [exec, execTick, run, free]
  have scanned : exec (.scan count) { s with stimuli := rest, tickPend := true }
      = .next (finish (noteIdle { s with stimuli := rest })) := by
    rw [← finish_noteIdle_tickPend { s with stimuli := rest } true]
    exact execScan_noTouch ⟨run, ready, rfl⟩ idle
  rw [run_encode (k + 1) rfl valid pending ticked]
  exact run_encode k rfl valid rfl scanned

/-- R171: an idling machine idles again after a tick without a touch. -/
theorem idling_finish_noteIdle {s : State} (idling : Idling s) : Idling (finish (noteIdle s)) := by
  obtain ⟨valid, run, ready, -⟩ := idling
  obtain ⟨-, -, sameRun, samePhase, sameConfig, -⟩ := noteIdle_frame s
  rw [finish_eq]
  exact ⟨by rw [sameConfig, valid], sameRun.trans run, samePhase.trans ready, rfl⟩

/-- Settles O51, by induction on the counts: each tick without a touch advances SELCH by one and leaves the machine idling. -/
theorem roundRobinOverTicks : Obligations.RoundRobinOverTicks := by
  unfold Obligations.RoundRobinOverTicks
  intro s counts rest
  induction counts generalizing s with
  | nil =>
    intro idling _ pending
    exact ⟨s, rfl, (Nat.mod_eq_of_lt s.selch.isLt).symm, idling, pending⟩
  | cons count counts ih =>
    intro idling idle pending
    obtain ⟨first, later⟩ := List.forall_mem_cons.mp idle
    have words : s.stimuli = tickScan count ++ (counts.flatMap tickScan ++ rest) := by
      rw [pending, List.flatMap_cons, List.append_assoc]
    obtain ⟨selch, thresh, -, -, -, stimuli⟩ := noteIdle_frame { s with stimuli := counts.flatMap tickScan ++ rest }
    obtain ⟨t, ran, cycled, idlingAgain, left⟩ :=
      ih (finish (noteIdle { s with stimuli := counts.flatMap tickScan ++ rest })) (idling_finish_noteIdle idling)
        (by simpa [finish_eq, thresh] using later) (by rw [finish_eq, stimuli])
    refine ⟨t, (run_tickScan_noTouch (2 * counts.length) idling first words).trans ran, ?_, idlingAgain, left⟩
    rw [cycled, finish_eq, selch, Fin.val_add, List.length_cons]
    change ((s.selch.val + 1) % 7 + counts.length) % 7 = (s.selch.val + (counts.length + 1)) % 7
    omega

end Sys2Proof.Safety
end

section
/-! The note branches of a SCAN (spec/41_note_state_machine.md R120, R121, R131, R132): the next state of a touch on the recorded
channel and of a count that is no touch, and channel 1 under CH1_QUIRK. -/

namespace Sys2Proof.Machine

/-- R102, with the modulus written out. -/
theorem channel_succ_eq (c : Channel) : c + 1 = ⟨(c.val + 1) % 7, Nat.mod_lt _ (Nat.succ_pos 6)⟩ :=
  Fin.ext (Fin.val_add c 1)

/-- R121: the incremented count is 13 just when 12 ticks were counted, for a wrap leads to 0. -/
theorem idleCnt_last_iff (n : Byte) : (n.toNat + 1) % 256 = 13 ↔ n = 12#8 := by
  bv_omega

/-- R61: STATUS bit 0 tells whether a note is recorded. -/
theorem statusByte_playing (s : State) : (statusByte s).getLsbD 0 = s.sndch.isSome := by
  refine (BitVec.getLsbD_append (i := 0)).trans ?_
  simp

/-- R61: bits [7:4] of CHAN hold SNDCH. -/
theorem chanByte_sounding (s : State) : (chanByte s).toNat / 16 = (soundingBits s.sndch).toNat := by
  rw [chanByte, State.cpsChsel]
  generalize soundingBits s.sndch = sounding
  generalize channelBits s.selch = selected
  revert sounding selected
  decide

/-- Settles O16: the touch is on the recorded channel, so the SCAN clears IDLECNT and finishes the tick. -/
theorem scanTouchHoldsTone : Obligations.ScanTouchHoldsTone := by
  unfold Obligations.ScanTouchHoldsTone
  intro s count run ready pend touch own
  rw [← channel_succ_eq, ← finish_eq { s with idleCnt := 0#8 }]
  exact execScan_of_scanCase ⟨run, ready, pend⟩ (.inr (.inl ⟨touch, own, rfl⟩))

/-- Settles O17: the count that reaches 13 stops the tone and clears IDLECNT, any other is stored, and the tick ends. -/
theorem scanNoTouchCounts : Obligations.ScanNoTouchCounts := by
  unfold Obligations.ScanNoTouchCounts
  intro s count run ready pend noTouch
  have enabled : s.run = true ∧ s.phase = .ready ∧ s.tickPend = true := ⟨run, ready, pend⟩
  have idle : ¬ count < s.thresh := Nat.not_lt.mpr noTouch
  simp only [← channel_succ_eq, idleCnt_last_iff]
  split_ifs with last
  · exact execScan_of_scanCase enabled (.inr (.inr (.inr ⟨idle, last, by simp [finish_eq]⟩)))
  · have counted : BitVec.ofNat 8 ((s.idleCnt.toNat + 1) % 256) = s.idleCnt + 1#8 := by bv_omega
    rw [counted]
    exact execScan_of_scanCase enabled (.inr (.inr (.inl ⟨idle, last, by simp [finish_eq]⟩)))

/-- Settles O43: a start on channel 1 programs TONE[1] and records 0, and 0 is then the recorded channel that a touch holds. -/
theorem channelOneQuirk : Obligations.ChannelOneQuirk := by
  unfold Obligations.ChannelOneQuirk
  intro s count quirk run ready pend touch
  have enabled : s.run = true ∧ s.phase = .ready ∧ s.tickPend = true := ⟨run, ready, pend⟩
  refine ⟨fun one other => ?restart, fun zero own => ?hold⟩
  case restart =>
    have started : execScan count s = .next (startTone 1 s) :=
      execScan_of_scanCase enabled (.inl ⟨touch, one ▸ other, by rw [one]⟩)
    have recorded : (startTone 1 s).sndch = some 0 := by simp [startTone_eq, recordedChannel, quirk]
    refine ⟨_, started, recorded, ⟨rfl, rfl⟩, rfl, rfl, ?_, ?_⟩
    · exact (statusByte_playing _).trans (by rw [recorded]; rfl)
    · exact (chanByte_sounding _).trans (by rw [recorded]; rfl)
  case hold =>
    have held : execScan count s = .next (finish { s with idleCnt := 0#8 }) :=
      execScan_of_scanCase enabled (.inr (.inl ⟨touch, zero ▸ own, rfl⟩))
    exact ⟨_, held, rfl, own, ready, rfl, rfl, rfl⟩

end Sys2Proof.Machine
end

section
/-! A held note (spec/41_note_state_machine.md R129): IDLECNT counts at most the ticks since the held channel was scanned, and the
channel is scanned again before that number passes 6. -/

namespace Sys2Proof.Safety

open Sys2Proof Sys2Proof.Machine

theorem ticksSince_le (c selch : Channel) : ticksSince c selch ≤ 6 := Nat.le_of_lt_succ (selch - c - 1).isLt

/-- R105: a tick that scans another channel is one more since `c` was scanned. -/
theorem ticksSince_succ {c selch : Channel} (other : selch ≠ c) : ticksSince c (selch + 1) = ticksSince c selch + 1 := by
  revert c selch
  decide

theorem held_idleCnt_le {c : Channel} {s : State} (held : Held c s) (ready : s.phase = .ready) : s.idleCnt.toNat ≤ 6 := by
  obtain ⟨-, -, counted⟩ := held
  exact (counted ready).trans (ticksSince_le c s.selch)

/-- R171: a tick ends with `c` held, if IDLECNT then counts at most the ticks since the scan of `c`. -/
theorem held_finish {c : Channel} {s : State} (sounds : s.sndch = some c) (ready : s.phase = .ready)
    (counted : s.idleCnt.toNat ≤ ticksSince c (s.selch + 1)) : Held c (finish s) := by
  rw [finish_eq]
  exact ⟨sounds, by simp [ready], fun _ => counted⟩

/-- R151: the boundary that completes the start of `c` clears IDLECNT. -/
theorem held_completeStart {c : Channel} {s : State} (sounds : s.sndch = some c) : Held c (completeStart s) :=
  held_finish (s := { setPwmEn true s with idleCnt := 0#8, phase := .ready }) sounds rfl (Nat.zero_le _)

/-- R120, R121: while every scan of `c` is a touch, a SCAN goes on holding `c` or starts the channel it scanned. -/
theorem held_scan {c : Channel} {count : Half} {s t : State} (held : Held c s) (ready : s.phase = .ready)
    (touches : s.selch = c → count < s.thresh) (h : ScanCase count s t) :
    Held c t ∨ (count < s.thresh ∧ s.selch ≠ c ∧ t = startTone s.selch s) := by
  have within := held_idleCnt_le held ready
  obtain ⟨sounds, -, counted⟩ := held
  obtain ⟨touch, other, rfl⟩ | ⟨-, -, rfl⟩ | ⟨idle, -, rfl⟩ | ⟨-, last, -⟩ := h
  · exact .inr ⟨touch, fun own => other (own ▸ sounds), rfl⟩
  · exact .inl (held_finish sounds ready (Nat.zero_le _))
  · have bound : (s.idleCnt + 1#8).toNat ≤ ticksSince c (s.selch + 1) := by
      have before := counted ready
      rw [ticksSince_succ (mt touches idle)]
      bv_omega
    exact .inl (held_finish sounds ready bound)
  · simp [last] at within

/-- R129: every stimulus but RESET goes on holding `c`, or is a touch that starts another channel. -/
theorem held_exec {c : Channel} {i : Instr} {s t : State} (held : Held c s) (h : exec i s = .next t) (notReset : i ≠ .reset)
    (touches : ∀ count, i = .scan count → s.selch = c → count < s.thresh) :
    Held c t ∨ ∃ count, i = .scan count ∧ count < s.thresh ∧ s.selch ≠ c ∧ t = startTone s.selch s := by
  have answer := exec_inv h
  cases i with
  | reset => exact absurd rfl notReset
  | scan count =>
    obtain ⟨⟨-, ready, -⟩, scanned⟩ := answer
    exact (held_scan held ready (touches count rfl) scanned).imp_right fun retargets => ⟨count, rfl, retargets⟩
  | pwmb =>
    obtain ⟨-, rfl⟩ | ⟨-, rfl⟩ := answer
    · obtain ⟨sounds, -, -⟩ := held
      exact .inl (held_completeStart sounds)
    · exact .inl held
  | tick => obtain ⟨-, rfl⟩ | ⟨-, -, rfl⟩ | ⟨-, -, rfl⟩ := answer <;> exact .inl held
  | wrCtrl byte => obtain ⟨-, rfl⟩ | ⟨-, rfl⟩ := answer <;> exact .inl held
  | wrStatus | wrRos | wrThrl | wrThrh | wrBasel | wrBaseh | wrRop | wrRsv | rd =>
    subst answer
    exact .inl held

/-- Settles O49: a stimulus that does not go on holding `c` starts another channel, which CH1_QUIRK = 0 records as itself. -/
theorem heldNoteNeverStops : Obligations.HeldNoteNeverStops := by
  unfold Obligations.HeldNoteNeverStops
  intro c i s t plain held h notReset touches
  obtain still | ⟨count, rfl, touch, other, rfl⟩ := held_exec held h notReset touches
  · exact .inl ⟨still, held_idleCnt_le still⟩
  · have recorded : (startTone s.selch s).sndch = some s.selch := by simp [startTone_eq, recordedChannel, plain]
    exact .inr ⟨s.selch, other, rfl, recorded, rfl, count, rfl, touch⟩

end Sys2Proof.Safety
end

section
/-! A released note (spec/41_note_state_machine.md R130, R126): twelve ticks without a touch only count, the thirteenth stops it. -/

namespace Sys2Proof.Safety

open Sys2Proof Sys2Proof.Machine

/-- From `s` to `t` the note and its tone registers are as they were, and so is the threshold they were compared with. -/
structure SameNote (s t : State) : Prop where
  sndch : t.sndch = s.sndch
  pwmEn : t.pwmEn = s.pwmEn
  indicator : t.indicator = s.indicator
  pwmPeriod : t.pwmPeriod = s.pwmPeriod
  pwmDuty : t.pwmDuty = s.pwmDuty
  thresh : t.thresh = s.thresh

theorem SameNote.trans {s t u : State} (first : SameNote s t) (later : SameNote t u) : SameNote s u where
  sndch := later.sndch.trans first.sndch
  pwmEn := later.pwmEn.trans first.pwmEn
  indicator := later.indicator.trans first.indicator
  pwmPeriod := later.pwmPeriod.trans first.pwmPeriod
  pwmDuty := later.pwmDuty.trans first.pwmDuty
  thresh := later.thresh.trans first.thresh

/-- R121: a tick without a touch counts one, and before the count is 12 it leaves the note alone. -/
theorem finish_noteIdle_counts {s : State} (more : s.idleCnt.toNat < 12) :
    SameNote s (finish (noteIdle s)) ∧ (finish (noteIdle s)).idleCnt.toNat = s.idleCnt.toNat + 1 := by
  obtain ⟨-, e⟩ | ⟨last, -⟩ := noteIdle_cases s
  · rw [e, finish_eq]
    exact ⟨⟨rfl, rfl, rfl, rfl, rfl, rfl⟩, by bv_omega⟩
  · simp [last] at more

/-- R126: one tick without a touch, on whatever channel, with the count below 12. -/
theorem run_tickScan_counts {s : State} {count : Half} {rest : List StimWord} (idling : Idling s)
    (more : s.idleCnt.toNat < 12) (idle : s.thresh.toNat ≤ count.toNat) (pending : s.stimuli = tickScan count ++ rest) :
    ∃ t, (∀ k, Host.Core.run Sys2Proof.core (k + 2) s = Host.Core.run Sys2Proof.core k t)
      ∧ SameNote s t ∧ t.idleCnt.toNat = s.idleCnt.toNat + 1 ∧ Idling t ∧ t.stimuli = rest := by
  obtain ⟨same, counted⟩ := finish_noteIdle_counts (s := { s with stimuli := rest }) more
  obtain ⟨-, -, -, -, -, left⟩ := noteIdle_frame { s with stimuli := rest }
  exact ⟨_, fun k => run_tickScan_noTouch k idling idle pending, ⟨same.sndch, same.pwmEn, same.indicator, same.pwmPeriod,
    same.pwmDuty, same.thresh⟩, counted, idling_finish_noteIdle idling, left⟩

/-- R126: as many ticks without a touch as the count can take before 13. -/
theorem run_noTouch_counts {s : State} {counts : List Half} {rest : List StimWord} (idling : Idling s)
    (bound : s.idleCnt.toNat + counts.length ≤ 12) (idle : ∀ count ∈ counts, s.thresh.toNat ≤ count.toNat)
    (pending : s.stimuli = counts.flatMap tickScan ++ rest) :
    ∃ t, (∀ k, Host.Core.run Sys2Proof.core (k + 2 * counts.length) s = Host.Core.run Sys2Proof.core k t)
      ∧ SameNote s t ∧ t.idleCnt.toNat = s.idleCnt.toNat + counts.length := by
  induction counts generalizing s with
  | nil => exact ⟨s, fun _ => rfl, ⟨rfl, rfl, rfl, rfl, rfl, rfl⟩, rfl⟩
  | cons count counts ih =>
    obtain ⟨first, later⟩ := List.forall_mem_cons.mp idle
    have words : s.stimuli = tickScan count ++ (counts.flatMap tickScan ++ rest) := by
      rw [pending, List.flatMap_cons, List.append_assoc]
    rw [List.length_cons] at *
    obtain ⟨u, ticked, same, one, idlingAgain, left⟩ := run_tickScan_counts idling (by omega) first words
    obtain ⟨t, ran, sameLater, counted⟩ := ih idlingAgain (by omega) (by rwa [same.thresh]) left
    exact ⟨t, fun k => (ticked (k + 2 * counts.length)).trans (ran k), same.trans sameLater, by omega⟩

/-- R121, R152: the thirteenth tick without a touch stops the tone, and leaves its tone registers as they are (R154). -/
theorem finish_noteIdle_stops {s : State} (last : s.idleCnt = 12#8) :
    finish (noteIdle s) = finish { stopTone s with idleCnt := 0#8 } := by
  obtain ⟨more, -⟩ | ⟨-, e⟩ := noteIdle_cases s
  · exact absurd last more
  · rw [e, stopTone_eq]

/-- Settles O50: twelve ticks count to 12 and leave the note alone, the round robin (O51) gives the channel, and the next tick
stops. -/
theorem stopLatencyThirteenTicks : Obligations.StopLatencyThirteenTicks := by
  unfold Obligations.StopLatencyThirteenTicks
  intro s c counts last rest idling selected clear twelve idle pending
  obtain ⟨before, final⟩ := List.forall_mem_append.mp idle
  obtain ⟨t, ran, same, counted⟩ := run_noTouch_counts idling (by simp [clear, twelve]) before pending
  obtain ⟨t', ran', cycled, idlingAgain, left⟩ := roundRobinOverTicks s counts _ idling before pending
  rw [clear, twelve] at counted
  rw [twelve] at ran ran' cycled
  obtain rfl : t = t' := Host.Outcome.next.inj ((ran 0).symm.trans ran')
  have full : t.idleCnt = 12#8 := BitVec.eq_of_toNat_eq counted
  have following : t.selch = c + 6 := by
    apply Fin.ext
    rw [cycled, selected, Fin.val_add, Fin.val_add]
    change ((c.val + 1) % 7 + 12) % 7 = (c.val + 6) % 7
    omega
  have stopped : Host.Core.run Sys2Proof.core 26 s
      = .next (finish { stopTone { t with stimuli := rest } with idleCnt := 0#8 }) := by
    rw [ran 2, ← finish_noteIdle_stops (s := { t with stimuli := rest }) full]
    exact run_tickScan_noTouch 0 idlingAgain (same.thresh ▸ final last (List.mem_singleton_self last)) left
  exact ⟨t, _, ran', same.sndch, same.pwmEn, same.indicator, full, following, stopped, rfl, rfl, rfl, rfl, same.pwmPeriod,
    same.pwmDuty, rfl⟩

end Sys2Proof.Safety
end

section
/-! The switching order of the PWM outputs (spec/42_tone_generator.md R153): how a stimulus may touch them, and that each way keeps
the trace free of an unguarded tone write. -/

namespace Sys2Proof.Safety

open Sys2Proof Sys2Proof.Machine

/-- What an answered stimulus and the events it appends do to the PWM outputs: program the tone behind a pwmEn(0), or program none. -/
inductive Switches (i : Instr) (s t : State) : List OutEvent → Prop
  | programs (period duty : Half) (off : t.pwmEn = false) :
      Switches i s t [.indicator true, .pwmEn false, .period period, .duty duty]
  | keeps {events : List OutEvent} (noTone : ∀ e ∈ events, programsPwm e = false)
      (boundary : OutEvent.pwmEn true ∈ events → i = .pwmb ∧ s.phase = .wait)
      (registers : (t.pwmPeriod = s.pwmPeriod ∧ t.pwmDuty = s.pwmDuty) ∨ t.pwmEn = false) : Switches i s t events

/-- A stimulus that writes neither the trace nor a tone register. -/
theorem switches_silent {i : Instr} {s t : State} (trace : t.outTrace = s.outTrace) (period : t.pwmPeriod = s.pwmPeriod)
    (duty : t.pwmDuty = s.pwmDuty) : ∃ events, t.outTrace = s.outTrace ++ events ∧ Switches i s t events :=
  ⟨[], by simpa using trace, .keeps nofun nofun (.inl ⟨period, duty⟩)⟩

/-- R153: a SCAN programs the tone only by a start sequence, and never enables the output. -/
theorem switches_scan {i : Instr} {count : Half} {s t : State} (h : ScanCase count s t) :
    ∃ events, t.outTrace = s.outTrace ++ events ∧ Switches i s t events := by
  obtain ⟨-, -, rfl⟩ | ⟨-, -, rfl⟩ | ⟨-, -, rfl⟩ | ⟨-, -, rfl⟩ := h
  · rw [startTone_eq]
    exact ⟨_, rfl, .programs _ _ rfl⟩
  · rw [finish_eq]
    exact ⟨_, rfl, .keeps (by simp [programsPwm]) (by simp) (.inl ⟨rfl, rfl⟩)⟩
  · rw [finish_eq]
    exact ⟨_, rfl, .keeps (by simp [programsPwm]) (by simp) (.inl ⟨rfl, rfl⟩)⟩
  · rw [finish_eq]
    exact ⟨_, List.append_assoc .., .keeps (by simp [programsPwm]) (by simp) (.inl ⟨rfl, rfl⟩)⟩

/-- R153, R151: only the PWMB that ends a WAIT enables the output; RESET zeroes the tone registers with the output off. -/
theorem switches_exec {i : Instr} {s t : State} (h : exec i s = .next t) :
    ∃ events, t.outTrace = s.outTrace ++ events ∧ Switches i s t events := by
  have answer := exec_inv h
  cases i with
  | reset =>
    subst answer
    exact ⟨[.reset], rfl, .keeps (by simp [programsPwm]) (by simp) (.inr rfl)⟩
  | scan count => exact switches_scan answer.2
  | pwmb =>
    obtain ⟨wait, rfl⟩ | ⟨-, rfl⟩ := answer
    · rw [completeStart_eq]
      exact ⟨_, rfl, .keeps (by simp [programsPwm]) (fun _ => ⟨rfl, wait⟩) (.inl ⟨rfl, rfl⟩)⟩
    · exact switches_silent rfl rfl rfl
  | tick => obtain ⟨-, rfl⟩ | ⟨-, -, rfl⟩ | ⟨-, -, rfl⟩ := answer <;> exact switches_silent rfl rfl rfl
  | wrCtrl byte => obtain ⟨-, rfl⟩ | ⟨-, rfl⟩ := answer <;> exact switches_silent rfl rfl rfl
  | wrStatus | wrRos | wrThrl | wrThrh | wrBasel | wrBaseh | wrRop | wrRsv | rd =>
    subst answer
    exact switches_silent rfl rfl rfl

/-- The last switch of the output that a trace shows, if any, turned it off: what R153 asks before a tone write. -/
def OffAfter (trace : List OutEvent) : Prop :=
  ∃ earlier between, trace = earlier ++ .pwmEn false :: between ∧ OutEvent.pwmEn true ∉ between

theorem offAfter_append {trace events : List OutEvent} (off : OffAfter trace) (noEnable : OutEvent.pwmEn true ∉ events) :
    OffAfter (trace ++ events) := by
  obtain ⟨earlier, between, rfl, disabled⟩ := off
  exact ⟨earlier, between ++ events, by simp, by simp [disabled, noEnable]⟩

/-- A trace stays glitch-free when each tone write among the events appended finds the output switched off. -/
theorem glitchFree_append {trace events : List OutEvent} (h : GlitchFree trace)
    (guarded : ∀ before e after, events = before ++ e :: after → programsPwm e = true → OffAfter (trace ++ before)) :
    GlitchFree (trace ++ events) := by
  intro before e after split writes
  obtain ⟨mid, rfl, rest⟩ | ⟨mid, rfl, rest⟩ := List.append_eq_append_iff.mp split
  · exact guarded mid e after rest writes
  · obtain ⟨rfl, rest⟩ | ⟨mid, rfl, -⟩ := List.cons_eq_append_iff.mp rest
    · simpa [OffAfter] using guarded [] e after rest.symm writes
    · exact h before e mid rfl writes

theorem glitchFree_append_noTone {trace events : List OutEvent} (h : GlitchFree trace)
    (noTone : ∀ e ∈ events, programsPwm e = false) : GlitchFree (trace ++ events) :=
  glitchFree_append h fun before e after split writes => by simp [noTone e (by simp [split])] at writes

theorem glitchFree_append_off {trace events : List OutEvent} (h : GlitchFree trace) (off : OffAfter trace)
    (noEnable : OutEvent.pwmEn true ∉ events) : GlitchFree (trace ++ events) :=
  glitchFree_append h fun before e after split _ =>
    offAfter_append off fun enabled => noEnable (by simp [split, enabled])

/-- R150, R262: a start switches the output off before it programs the tone. -/
theorem glitchFree_switches {i : Instr} {s t : State} {trace events : List OutEvent} (h : GlitchFree trace)
    (switched : Switches i s t events) : GlitchFree (trace ++ events) := by
  cases switched with
  | programs period duty off =>
    have silenced : GlitchFree (trace ++ [.indicator true, .pwmEn false]) :=
      glitchFree_append_noTone h (by simp [programsPwm])
    have guarded : OffAfter (trace ++ [.indicator true, .pwmEn false]) :=
      ⟨trace ++ [.indicator true], [], by simp, by simp⟩
    simpa using glitchFree_append_off (events := [.period period, .duty duty]) silenced guarded (by simp)
  | keeps noTone => exact glitchFree_append_noTone h noTone

/-- Settles O47: the events that the stimulus appends either program no tone, or program it behind their own pwmEn(0). -/
theorem stepKeepsGlitchFree : Obligations.StepKeepsGlitchFree := by
  unfold Obligations.StepKeepsGlitchFree
  intro s t glitchFree stepped
  obtain ⟨-, i, w, rest, -, -, executed⟩ := step_inv stepped
  obtain ⟨events, appended, switched⟩ := switches_exec executed
  rw [appended]
  exact glitchFree_switches glitchFree switched

/-- Settles O40: of the two ways to touch the PWM outputs, a start enables nothing, and the other enables at a boundary only and
changes a tone register only if it leaves the output off. -/
theorem pwmEnabledOnlyAtBoundary : Obligations.PwmEnabledOnlyAtBoundary := by
  unfold Obligations.PwmEnabledOnlyAtBoundary
  intro i s t events h appended
  obtain ⟨events', appended', switched⟩ := switches_exec h
  obtain rfl : events = events' := List.append_cancel_left (appended.symm.trans appended')
  cases switched with
  | programs period duty off => exact ⟨by simp, fun _ => off⟩
  | keeps _ boundary registers =>
    refine ⟨boundary, fun changed => ?_⟩
    obtain ⟨period, duty⟩ | off := registers
    · simp [period, duty] at changed
    · exact off

end Sys2Proof.Safety
end

section
/-! The start sequence (spec/42_tone_generator.md R150, R151, R156, R157): the SCAN that begins it, the WAIT that every stimulus but
PWMB and RESET leaves as it is, and the PWMB that completes it. -/

namespace Sys2Proof.Safety

open Sys2Proof Sys2Proof.Machine

/-- R122, with its condition as a proposition. -/
theorem recordedChannel_eq (quirk : Bool) (ch : Channel) :
    recordedChannel quirk ch = if quirk = true ∧ ch = 1 then 0 else ch := by
  simp [recordedChannel]

/-- R157: in WAIT, no stimulus but PWMB and RESET moves the phase, the output or the channel; a SCAN does not even answer. -/
theorem exec_wait {i : Instr} {s t : State} (h : exec i s = .next t) (wait : s.phase = .wait) (notBoundary : i ≠ .pwmb)
    (notReset : i ≠ .reset) : t.phase = .wait ∧ t.pwmEn = s.pwmEn ∧ t.selch = s.selch := by
  have answer := exec_inv h
  cases i with
  | reset => exact absurd rfl notReset
  | pwmb => exact absurd rfl notBoundary
  | scan count =>
    obtain ⟨⟨-, ready, -⟩, -⟩ := answer
    simp [wait] at ready
  | tick => obtain ⟨-, rfl⟩ | ⟨-, -, rfl⟩ | ⟨-, -, rfl⟩ := answer <;> exact ⟨wait, rfl, rfl⟩
  | wrCtrl byte => obtain ⟨-, rfl⟩ | ⟨-, rfl⟩ := answer <;> exact ⟨wait, rfl, rfl⟩
  | wrStatus | wrRos | wrThrl | wrThrh | wrBasel | wrBaseh | wrRop | wrRsv | rd =>
    subst answer
    exact ⟨wait, rfl, rfl⟩

theorem ne_of_leavesWait {i : Instr} (leaves : leavesWait i = true) : i ≠ .pwmb ∧ i ≠ .reset := by
  constructor <;> rintro rfl <;> simp [leavesWait] at leaves

/-- TICK, every WR and RD have a step in every state of a machine in range. -/
theorem exec_answers_of_leavesWait {i : Instr} {s : State} (valid : s.config.valid = true) (leaves : leavesWait i = true) :
    ∃ t, exec i s = .next t := by
  cases i with
  | reset | scan | pwmb => simp [leavesWait] at leaves
  | wrCtrl byte => exact execWrCtrl_answers byte valid
  | tick | wrStatus | wrRos | wrThrl | wrThrh | wrBasel | wrBaseh | wrRop | wrRsv | rd => exact ⟨_, rfl⟩

/-- R157, R156: a run takes the words of any TICKs, WRs and RDs in WAIT, and the WAIT goes on. -/
theorem run_leavesWait {s : State} {before : List Instr} {words : List StimWord} (valid : s.config.valid = true)
    (wait : s.phase = .wait) (leave : ∀ i ∈ before, WellFormed i = true ∧ leavesWait i = true)
    (pending : s.stimuli = before.map encode ++ words) :
    ∃ t, (∀ k, Host.Core.run Sys2Proof.core (k + before.length) s = Host.Core.run Sys2Proof.core k t)
      ∧ t.phase = .wait ∧ t.pwmEn = s.pwmEn ∧ t.selch = s.selch ∧ t.config.valid = true ∧ t.stimuli = words := by
  induction before generalizing s with
  | nil => exact ⟨s, fun _ => rfl, wait, rfl, rfl, valid, pending⟩
  | cons i before ih =>
    obtain ⟨⟨wf, leaves⟩, later⟩ := List.forall_mem_cons.mp leave
    obtain ⟨u, executed⟩ :=
      exec_answers_of_leavesWait (s := { s with stimuli := before.map encode ++ words }) valid leaves
    obtain ⟨notBoundary, notReset⟩ := ne_of_leavesWait leaves
    obtain ⟨waits, pwmEn, selch⟩ := exec_wait executed wait notBoundary notReset
    obtain ⟨-, config, left, -⟩ := romAndParametersNeverChange i _ u executed
    obtain ⟨t, ran, stillWaits, samePwmEn, sameSelch, stillValid, rest⟩ := ih (config ▸ valid) waits later left
    exact ⟨t, fun k => (run_encode (k + before.length) wf valid pending executed).trans (ran k), stillWaits,
      samePwmEn.trans pwmEn, sameSelch.trans selch, stillValid, rest⟩

theorem execPwmb_of_wait {s : State} (wait : s.phase = .wait) : execPwmb s = .next (completeStart s) := by
  rw [execPwmb_eq, if_pos wait]

/-- Settles O15: the touch is on a channel that is not recorded, so the SCAN is that channel's `startTone`. -/
theorem scanTouchStartsTone : Obligations.ScanTouchStartsTone := by
  unfold Obligations.ScanTouchStartsTone
  intro s count run ready pend touch other
  rw [← recordedChannel_eq, ← startTone_eq]
  exact execScan_of_scanCase ⟨run, ready, pend⟩ (.inl ⟨touch, other, rfl⟩)

/-- Settles O39: the output is off in a WAIT that meets the invariant, where a tick is pending already. -/
theorem waitIsAHold : Obligations.WaitIsAHold := by
  unfold Obligations.WaitIsAHold
  intro s inv wait
  obtain ⟨run, pend, -, -, off⟩ := inv.inWait wait
  refine ⟨fun i t h notBoundary notReset => ?_, fun count => ?_, ?_⟩
  · obtain ⟨waits, pwmEn, -⟩ := exec_wait h wait notBoundary notReset
    exact ⟨waits, pwmEn.trans off⟩
  · exact (execScan_stuck_iff count s).mpr fun ⟨_, ready, _⟩ => by simp [wait] at ready
  · simp [exec, execTick, run, pend]

/-- Settles O52: the stimuli before the boundary leave the WAIT as it is, and the PWMB then completes the start. -/
theorem waitEndsAtFirstBoundary : Obligations.WaitEndsAtFirstBoundary := by
  unfold Obligations.WaitEndsAtFirstBoundary
  intro s before rest valid wait leave pending
  obtain ⟨t, ran, waits, pwmEn, selch, stillValid, left⟩ := run_leavesWait valid wait leave pending
  have now := ran 0
  have completed : Host.Core.run Sys2Proof.core (before.length + 1) s
      = .next (completeStart { t with stimuli := rest }) := by
    rw [Nat.add_comm, ran 1]
    exact run_encode (i := .pwmb) 0 rfl stillValid left (execPwmb_of_wait waits)
  rw [Nat.zero_add] at now
  rw [completeStart_eq, selch] at completed
  exact ⟨⟨t, now, waits, pwmEn⟩, _, completed, rfl, rfl, rfl, rfl, rfl, rfl⟩

/-- Settles O20: `execPwmb` is the spec's pseudocode, and a stopped machine that meets the invariant is READY. -/
theorem pwmBoundaryResult : Obligations.PwmBoundaryResult := by
  unfold Obligations.PwmBoundaryResult
  refine ⟨fun s => ?_, fun s inv stopped => ?_⟩
  · rw [← channel_succ_eq, ← completeStart_eq]
    exact execPwmb_eq s
  · obtain ⟨ready, -⟩ := inv.stopped stopped
    exact (execPwmb_eq s).trans (by simp [ready])

end Sys2Proof.Safety
end

section
/-! Tick service (spec/43_tick_dispatcher.md R170, R173): the three outcomes of a TICK, and that a SCAN leaves no tick for another. -/

namespace Sys2Proof.Machine

/-- R173: an answered SCAN starts a tone, and the tick waits for its boundary, or it clears TICKPEND. -/
theorem ScanCase.wait_or_no_tickPend {count : Half} {s t : State} (h : ScanCase count s t) :
    t.phase = .wait ∨ t.tickPend = false := by
  obtain ⟨-, -, rfl⟩ | ⟨-, -, rfl⟩ | ⟨-, -, rfl⟩ | ⟨-, -, rfl⟩ := h
  · exact .inl rfl
  all_goals exact .inr rfl

/-- Settles O18: the first SCAN leaves the phase WAIT or TICKPEND = 0, and R106 stops the second one on either. -/
theorem noScanWithoutNewTick : Obligations.NoScanWithoutNewTick := by
  unfold Obligations.NoScanWithoutNewTick
  intro s t count count' h
  obtain ⟨-, scanned⟩ := execScan_inv h
  refine (execScan_stuck_iff count' t).mpr fun ⟨_, ready, pend⟩ => ?_
  obtain wait | served := scanned.wait_or_no_tickPend
  · simp [wait] at ready
  · simp [served] at pend

/-- Settles O13: a TICK answers in every state, and R170's three cases are the branches of the claim. -/
theorem tickResult : Obligations.TickResult := by
  unfold Obligations.TickResult
  intro s
  obtain ⟨t, answered⟩ : ∃ t, exec .tick s = .next t := ⟨_, rfl⟩
  rw [answered]
  obtain ⟨stopped, rfl⟩ | ⟨run, pend, rfl⟩ | ⟨run, free, rfl⟩ := execTick_inv answered
  · simp [stopped]
  · simp [run, pend]
  · simp [run, free]

end Sys2Proof.Machine
end

section
/-! Host registers as numbers (spec/44_host_interface.md R192 to R202): the bits of a written byte, a 16-bit register with one byte
replaced, and the flag bytes. -/

namespace Sys2Proof.Machine

/-- R16: bit `i` of a byte, as a digit of its number. -/
theorem bitOf_eq_decide (b : Byte) (i : Nat) : bitOf b i = decide (b.toNat / 2 ^ i % 2 = 1) :=
  Nat.testBit_eq_decide_div_mod_eq

theorem lowByte_toNat (v : Half) : (lowByte v).toNat = v.toNat % 256 := by
  simp [lowByte]

theorem highByte_toNat (v : Half) : (highByte v).toNat = v.toNat / 256 := by
  have := v.isLt
  rw [highByte_eq_ofNat, BitVec.toNat_ofNat]
  omega

/-- R83: a register is the number its two bytes give. -/
theorem eq_ofNat_bytes (v : Half) : v = BitVec.ofNat 16 ((highByte v).toNat * 256 + (lowByte v).toNat) := by
  rw [highByte_lowByte_toNat, BitVec.ofNat_toNat, BitVec.setWidth_eq]

/-- R195, R197: the low byte replaced, as a number. -/
theorem setLowByte_eq_ofNat (v : Half) (b : Byte) : setLowByte v b = BitVec.ofNat 16 (v.toNat / 256 * 256 + b.toNat) := by
  rw [eq_ofNat_bytes (setLowByte v b), highByte_setLowByte, lowByte_setLowByte, highByte_toNat]

/-- R196, R198: the high byte replaced, as a number. -/
theorem setHighByte_eq_ofNat (v : Half) (b : Byte) : setHighByte v b = BitVec.ofNat 16 (b.toNat * 256 + v.toNat % 256) := by
  rw [eq_ofNat_bytes (setHighByte v b), highByte_setHighByte, lowByte_setHighByte, lowByte_toNat]

/-- R202: CTRL holds RUN alone. -/
theorem ctrlByte_eq_ofNat (s : State) : ctrlByte s = BitVec.ofNat 8 s.run.toNat := by
  cases run : s.run <;> simp [ctrlByte, run]

/-- R202: STATUS as the sum of its six flags. -/
theorem statusByte_eq_ofNat (s : State) :
    statusByte s = BitVec.ofNat 8
      (32 * s.indicator.toNat + 16 * s.pwmEn.toNat + 8 * s.tickLost.toNat + 4 * s.tickPend.toNat
        + 2 * (if s.phase = .wait then 1 else 0) + (if s.sndch ≠ none then 1 else 0)) := by
  have recorded : (if s.sndch ≠ none then 1 else 0) = s.sndch.isSome.toNat := by cases s.sndch <;> rfl
  rw [statusByte, recorded]
  generalize s.indicator = indicator
  generalize s.pwmEn = enabled
  generalize s.tickLost = lost
  generalize s.tickPend = pending
  generalize s.sndch.isSome = playing
  cases s.phase <;> revert indicator enabled lost pending playing <;> decide

/-- R202: CHAN as SNDCH, with 7 for NONE, above SELCH. -/
theorem chanByte_eq_ofNat (s : State) :
    chanByte s = BitVec.ofNat 8 (16 * (match s.sndch with | none => 7 | some c => c.val) + s.selch.val) := by
  rw [chanByte, State.cpsChsel]
  generalize s.selch = selected
  cases s.sndch with
  | none => revert selected; decide
  | some sounding => revert sounding selected; decide

/-- R61, R202: which register's byte each address reads. -/
theorem hostRead_eq (s : State) (a : HostAddr) :
    hostRead s a =
      if a = 0x0#4 then ctrlByte s
      else if a = 0x1#4 then statusByte s
      else if a = 0x2#4 then chanByte s
      else if a = 0x3#4 then s.idleCnt
      else if a = 0x4#4 then lowByte s.thresh
      else if a = 0x5#4 then highByte s.thresh
      else if a = 0x6#4 then lowByte s.baseline
      else if a = 0x7#4 then highByte s.baseline
      else if a = 0x8#4 then lowByte s.pwmPeriod
      else if a = 0x9#4 then highByte s.pwmPeriod
      else if a = 0xA#4 then lowByte s.pwmDuty
      else if a = 0xB#4 then highByte s.pwmDuty
      else 0x00#8 := by
  simp only [BitVec.toNat_eq, BitVec.toNat_ofNat, Nat.reducePow, Nat.reduceMod]
  unfold hostRead
  split
  case h_13 =>
    simp only [imp_false] at *
    simp [*]
  all_goals simp [*]

/-- R202: an RD records the byte its address reads. -/
theorem exec_rd_of_hostRead {s : State} {a : HostAddr} {byte : Byte} (read : hostRead s a = byte) :
    exec (.rd a) s = .next { s with hostReads := s.hostReads ++ [⟨a, byte⟩] } := by
  subst read
  rfl

end Sys2Proof.Machine
end

section
/-! RESET and the words of a run (spec/44_host_interface.md R190, spec/70_reset_and_hazards.md R250): the table that RESET leaves, and
how a run passes an answered word and a refused one. -/

namespace Sys2Proof.Safety

open Sys2Proof Sys2Proof.Machine

/-- R250: the bytes the host reads in the reset state; CHAN alone is not 0, for SNDCH is NONE. -/
theorem hostRead_reset (a : HostAddr) : hostRead State.reset a = if a = 0x2#4 then 0x70#8 else 0x00#8 := by
  revert a
  decide

/-- R250: the table speaks of registers only, so it holds whatever RESET leaves in the other fields. -/
theorem afterReset_of_registers (tone : ToneTable) (config : Config) (outTrace : List OutEvent)
    (refusals : List RefusalReason) (stimuli : List StimWord) (hostReads : List HostRead) :
    AfterReset { State.reset with
      tone := tone, config := config, outTrace := outTrace, refusals := refusals, stimuli := stimuli,
      hostReads := hostReads } :=
  ⟨rfl, rfl, rfl, rfl, rfl, rfl, rfl, rfl, rfl, rfl, rfl, rfl, rfl, rfl, hostRead_reset⟩

/-- An answered word takes a run on to its answer. -/
theorem runStep_of_step {s t : State} (h : step s = .next t) : runStep s = .next t := by
  simp [runStep, h]

/-- R86: a refused word takes a run on to the marked state. -/
theorem runStep_of_decode_error {s : State} {w : StimWord} {rest : List StimWord} {r : RefusalReason}
    (valid : s.config.valid = true) (pending : s.stimuli = w :: rest) (refused : decode w = .error r) :
    runStep s = .next (recordRefusal r { s with stimuli := rest }) := by
  simp [runStep, step_of_fetch_refused (fetch_of_decode_error valid pending refused)]

theorem runWords_succ {k : Nat} {s t : State} (h : runStep s = .next t) : runWords (k + 1) s = runWords k t := by
  simp [runWords, Host.Core.run, h]

/-- Settles O11: RESET copies the fields it leaves alone into the reset state and appends its event. -/
theorem resetResult : Obligations.ResetResult := by
  unfold Obligations.ResetResult
  intro s
  rfl

/-- Settles O56: the refused word leaves the marked state, whose next word, RESET, has its step. -/
theorem resetAfterRefusedWord : Obligations.ResetAfterRefusedWord := by
  unfold Obligations.ResetAfterRefusedWord
  intro s w rest r valid pending refused
  obtain ⟨-, steps⟩ := stepRunsDecoded (recordRefusal r { s with stimuli := encode .reset :: rest }) (encode .reset) rest .reset
    valid rfl (decodeOfEncode .reset rfl)
  have passed : runStep s = .next _ := runStep_of_decode_error valid pending refused
  have reset : runStep (recordRefusal r { s with stimuli := encode .reset :: rest }) = .next _ := runStep_of_step steps
  refine ⟨_, (runWords_succ passed).trans (runWords_succ reset), afterReset_of_registers .., rfl, ?_, rfl, rfl⟩
  exact recordRefusal_marked r s

end Sys2Proof.Safety
end

section
/-! The statements of spec/44_host_interface.md about one host access: the writes, the calibration and RD. -/

namespace Sys2Proof.Machine

/-- R193: the subtrahend is b·CAL_NUM/CAL_DEN ≤ b, rounded to nearest, so it does not pass b. -/
theorem calSubtrahend_le {b num den : Nat} (positive : 0 < den) (fraction : num ≤ den) :
    (2 * b * num + den) / (2 * den) ≤ b := by
  have scaled : 2 * b * num ≤ 2 * b * den := Nat.mul_le_mul_left _ fraction
  refine Nat.le_of_lt_succ (Nat.div_lt_of_lt_mul ?_)
  calc 2 * b * num + den < 2 * b * den + 2 * den := by omega
    _ = 2 * den * (b + 1) := by ring

/-- Settles O22: the 16-bit result is the exact difference, and at 1/5 the quotient is that of (b + 2) by 5, since 2b is even. -/
theorem calibrationFormula : Obligations.CalibrationFormula := by
  unfold Obligations.CalibrationFormula
  refine ⟨fun c b positive fraction => ⟨calSubtrahend_le positive fraction, calThreshold_toNat c b⟩,
    fun c b num den => ⟨?_, by omega⟩⟩
  rw [calThreshold_toNat, num, den]
  omega

/-- Settles O31: none of the cases of an answered write names a field but these four. -/
theorem hostWriteFrame : Obligations.HostWriteFrame := by
  unfold Obligations.HostWriteFrame
  intro s t a b h
  obtain ⟨-, ⟨-, rfl⟩ | ⟨-, rfl⟩⟩ | ⟨-, rfl⟩ | ⟨-, rfl⟩ | ⟨-, rfl⟩ | ⟨-, rfl⟩ | ⟨-, rfl⟩ | ⟨-, rfl⟩ :=
    execDecodeWrite_inv h
  all_goals rfl

/-- Settles O21: in range a write of CTRL is answered, and its two cases are the branches of the claim. -/
theorem writeCtrlResult : Obligations.WriteCtrlResult := by
  unfold Obligations.WriteCtrlResult
  intro s b positive fraction
  have valid : s.config.valid = true := by simp [Config.valid, positive, fraction]
  obtain ⟨t, answered⟩ := execWrCtrl_answers b valid
  refine Eq.trans answered (congrArg Host.Outcome.next ?_)
  obtain ⟨run, rfl⟩ | ⟨stopped, rfl⟩ := execWrCtrl_inv answered
  · simp [run]
  · simp [stopped, bitOf_eq_decide]

/-- Settles O23: bit 3 is the digit of weight 8. -/
theorem writeStatusResult : Obligations.WriteStatusResult := by
  unfold Obligations.WriteStatusResult
  intro s b
  have answer : ExecCase s _ (.wrStatus b) := exec_inv rfl
  refine congrArg Host.Outcome.next (Eq.trans answer ?_)
  simp [bitOf_eq_decide]

/-- Settles O24: `setLowByte` and `setHighByte` are the arithmetic of the claim, in the branch RUN = 0. -/
theorem writeThresholdResult : Obligations.WriteThresholdResult := by
  unfold Obligations.WriteThresholdResult
  intro s b
  have low : ExecCase s _ (.wrThrl b) := exec_inv rfl
  have high : ExecCase s _ (.wrThrh b) := exec_inv rfl
  refine ⟨congrArg Host.Outcome.next (Eq.trans low ?_), congrArg Host.Outcome.next (Eq.trans high ?_)⟩
  · rw [setLowByte_eq_ofNat]
  · rw [setHighByte_eq_ofNat]

/-- Settles O25: unlike THRESH, BASELINE is stored whatever RUN is. -/
theorem writeBaselineResult : Obligations.WriteBaselineResult := by
  unfold Obligations.WriteBaselineResult
  intro s b
  rw [← setLowByte_eq_ofNat, ← setHighByte_eq_ofNat]
  exact ⟨rfl, rfl⟩

/-- Settles O26: the three rows are answered with the state they are given. -/
theorem readOnlyWritesIgnored : Obligations.ReadOnlyWritesIgnored := by
  unfold Obligations.ReadOnlyWritesIgnored
  intro s a b
  exact ⟨rfl, rfl, rfl⟩

/-- Settles O27: an RD records the byte of its address, and each of the twelve readable bytes is the number R202 gives. -/
theorem readResult : Obligations.ReadResult := by
  unfold Obligations.ReadResult
  intro s a
  have read := hostRead_eq s a
  simp only [ctrlByte_eq_ofNat, statusByte_eq_ofNat, chanByte_eq_ofNat, lowByte_eq_ofNat, highByte_eq_ofNat] at read
  exact exec_rd_of_hostRead read

end Sys2Proof.Machine
end

section
/-! Simultaneous stimuli (spec/60_exceptions.md R226): a tick is lost, left pending or ignored by the order of TICK with the stimulus
presented beside it. -/

namespace Sys2Proof.Safety

open Sys2Proof Sys2Proof.Machine

/-- R170: a tick that comes while none is pending is left pending. -/
theorem execTick_pends {s : State} (run : s.run = true) (free : s.tickPend = false) :
    execTick s = .next { s with tickPend := true } := by
  simp [execTick, run, free]

/-- R175: a tick before RUN is ignored. -/
theorem execTick_stopped {s : State} (stopped : s.run = false) : execTick s = .next s := by
  simp [execTick, stopped]

/-- R192: the byte 0x01 starts a stopped machine and calibrates nothing. -/
theorem execWrCtrl_start {s : State} (stopped : s.run = false) : execWrCtrl 0x01#8 s = .next { s with run := true } := by
  simp [execWrCtrl, bitOf, stopped]

/-- Settles O41: a WAIT loses every tick (O39) until its boundary clears TICKPEND, and before RUN every tick is ignored. -/
theorem simultaneousEventsByOrder : Obligations.SimultaneousEventsByOrder := by
  unfold Obligations.SimultaneousEventsByOrder
  refine ⟨fun s inv wait => ?inWait, fun s inv stopped => ?beforeRun⟩
  case inWait =>
    obtain ⟨run, -⟩ := inv.inWait wait
    obtain ⟨-, -, lost⟩ := waitIsAHold s inv wait
    exact ⟨⟨_, _, lost, execPwmb_of_wait wait, rfl, rfl⟩,
      ⟨_, _, execPwmb_of_wait wait, execTick_pends run rfl, rfl, rfl⟩⟩
  case beforeRun =>
    obtain ⟨-, free, -⟩ := inv.stopped stopped
    exact ⟨⟨_, _, execWrCtrl_start stopped, execTick_pends rfl free, rfl, rfl⟩,
      ⟨_, _, execTick_stopped stopped, execWrCtrl_start stopped, rfl, free⟩⟩

end Sys2Proof.Safety
end

section
/-! PWM_RUNS (spec/60_exceptions.md R234): the first boundary of an endless stream ends a WAIT, as in a finite one (O52). -/

namespace Sys2Proof.Safety

open Sys2Proof Sys2Proof.Machine

/-- PWM_RUNS: a stream has a first boundary. -/
theorem PwmRuns.first {stream : Nat → StimWord} (runs : PwmRuns stream) :
    ∃ k, Spells stream k .pwmb ∧ ∀ m < k, ¬ Spells stream m .pwmb := by
  classical
  have comes : ∃ k, Spells stream k .pwmb := by
    obtain ⟨k, -, boundary⟩ := runs 0
    exact ⟨k, boundary⟩
  exact ⟨Nat.find comes, Nat.find_spec comes, fun m => Nat.find_min comes⟩

/-- Settles O53: the words up to the first boundary are TICKs, WRs and RDs, then the PWMB, which O52 says ends the WAIT. -/
theorem waitEndsUnderPwmRuns : Obligations.WaitEndsUnderPwmRuns := by
  unfold Obligations.WaitEndsUnderPwmRuns
  intro s stream valid wait runs stimuli
  choose stimulus spelled kind using stimuli
  obtain ⟨k, boundary, first⟩ := runs.first
  have encodes : ∀ m, encode (stimulus m) = stream m := fun m => (encodeOfDecode _ _ (spelled m)).2
  have leave : ∀ i ∈ (List.range k).map stimulus, WellFormed i = true ∧ leavesWait i = true := by
    simp only [List.mem_map, List.mem_range]
    rintro _ ⟨m, early, rfl⟩
    exact ⟨(encodeOfDecode _ _ (spelled m)).1, (kind m).resolve_right fun e => first m early (e ▸ spelled m)⟩
  have words : (List.range (k + 1)).map stream = ((List.range k).map stimulus).map encode ++ [encode .pwmb] := by
    rw [List.range_succ, List.map_append, List.map_map, (encodeOfDecode _ _ boundary).2]
    simp [encodes]
  obtain ⟨-, t, ran, ready, enabled, -⟩ :=
    waitEndsAtFirstBoundary { s with stimuli := (List.range (k + 1)).map stream } _ [] valid wait leave words
  rw [List.length_map, List.length_range] at ran
  exact ⟨k + 1, t, ran, ready, enabled⟩

end Sys2Proof.Safety
end

section
/-! Endless runs that scan (spec/60_exceptions.md R234): what happens between two SCANs, that a SCAN always comes, and the rule that
what the words between two SCANs keep still holds at the next one. -/

namespace Sys2Proof.Safety

open Sys2Proof Sys2Proof.Machine

/-- From `s` to `t` the registers of the sequencer are as they were, and a pending tick is still pending. -/
def SequencerKept (s t : State) : Prop :=
  t.phase = s.phase ∧ t.selch = s.selch ∧ t.idleCnt = s.idleCnt ∧ t.sndch = s.sndch ∧ t.pwmEn = s.pwmEn
    ∧ t.indicator = s.indicator ∧ (s.tickPend = true → t.tickPend = true)

/-- What a stimulus other than SCAN and RESET may do to the sequencer: nothing, or end a WAIT with one advance (R151). -/
def BetweenScans (s t : State) : Prop :=
  SequencerKept s t ∨ (s.phase = .wait ∧ t.phase = .ready ∧ t.selch = s.selch + 1)

/-- R265, R151: a stimulus other than SCAN and RESET leaves the sequencer alone, unless it is the PWMB that ends a WAIT. -/
theorem betweenScans_exec {i : Instr} {s t : State} (h : exec i s = .next t) (notReset : i ≠ .reset)
    (notScan : ∀ count, i ≠ .scan count) : BetweenScans s t := by
  have answer := exec_inv h
  have unchanged : SequencerKept s s := ⟨rfl, rfl, rfl, rfl, rfl, rfl, id⟩
  cases i with
  | reset => exact absurd rfl notReset
  | scan count => exact absurd rfl (notScan count)
  | pwmb =>
    obtain ⟨wait, rfl⟩ | ⟨-, rfl⟩ := answer
    · exact .inr ⟨wait, rfl, rfl⟩
    · exact .inl unchanged
  | tick =>
    obtain ⟨-, rfl⟩ | ⟨-, -, rfl⟩ | ⟨-, -, rfl⟩ := answer
    · exact .inl unchanged
    · exact .inl unchanged
    · exact .inl ⟨rfl, rfl, rfl, rfl, rfl, rfl, fun _ => rfl⟩
  | wrCtrl byte => obtain ⟨-, rfl⟩ | ⟨-, rfl⟩ := answer <;> exact .inl unchanged
  | wrStatus | wrRos | wrThrl | wrThrh | wrBasel | wrBaseh | wrRop | wrRsv | rd =>
    subst answer
    exact .inl unchanged

/-- R156: in READY no stimulus but SCAN and RESET reaches the sequencer. -/
theorem BetweenScans.kept_of_ready {s t : State} (h : BetweenScans s t) (ready : s.phase = .ready) : SequencerKept s t := by
  obtain kept | ⟨wait, -⟩ := h
  · exact kept
  · simp [ready] at wait

section
variable {stream : Nat → StimWord} {states : Nat → State} {n m : Nat}

/-- Every word of an endless run spells a stimulus. -/
theorem EndlessRun.spells (steps : EndlessRun stream states) (m : Nat) : ∃ i, Spells stream m i := by
  obtain ⟨-, i, w, rest, pending, spelled, -⟩ := step_inv (steps m)
  obtain ⟨rfl, -⟩ := List.cons.inj pending
  exact ⟨i, spelled⟩

/-- Word `m` of an endless run takes the state before it to the state after it. -/
theorem EndlessRun.exec_word (steps : EndlessRun stream states) {i : Instr} (spelled : Spells stream m i) :
    exec i { states m with stimuli := [] } = .next (states (m + 1)) := by
  obtain ⟨-, j, w, rest, pending, decoded, executed⟩ := step_inv (steps m)
  obtain ⟨rfl, rfl⟩ := List.cons.inj pending
  obtain rfl : i = j := Except.ok.inj (spelled.symm.trans decoded)
  exact executed

/-- R106: a SCAN of an endless run is not stuck. -/
theorem EndlessRun.scan_inv (steps : EndlessRun stream states) {count : Half} (scan : Spells stream m (.scan count)) :
    (states m).phase = .ready ∧ ScanCase count { states m with stimuli := [] } (states (m + 1)) := by
  obtain ⟨⟨-, ready, -⟩, scanned⟩ := exec_inv (steps.exec_word scan)
  exact ⟨ready, scanned⟩

/-- R151: after a boundary the phase is READY. -/
theorem EndlessRun.ready_after_boundary (steps : EndlessRun stream states) (boundary : Spells stream m .pwmb) :
    (states (m + 1)).phase = .ready :=
  execPwmb_phase (steps.exec_word boundary)

/-- R170: after a tick of a running machine a tick is pending. -/
theorem EndlessRun.tickPend_after_tick (steps : EndlessRun stream states) (run : (states m).run = true)
    (tick : Spells stream m .tick) : (states (m + 1)).tickPend = true :=
  execTick_tickPend (s := { states m with stimuli := [] }) run (steps.exec_word tick)

/-- R28, R255: RUN and THRESH are fixed from where the run scans on. -/
theorem ScanningFrom.run_thresh (scanning : ScanningFrom stream states n) (later : n ≤ m) :
    (states m).run = true ∧ (states m).thresh = (states n).thresh := by
  induction m, later using Nat.le_induction with
  | base => exact ⟨scanning.running, rfl⟩
  | succ m later ih =>
    obtain ⟨run, thresh⟩ := ih
    obtain ⟨i, spelled⟩ := scanning.steps.spells m
    have notReset : i ≠ .reset := fun e => scanning.noReset m later (e ▸ spelled)
    have executed := scanning.steps.exec_word spelled
    obtain ⟨runs, same⟩ := runAndThresholdFixedUntilReset i { states m with stimuli := [] } _ run executed notReset
    exact ⟨runs, same.trans thresh⟩

/-- A run that scans goes on scanning. -/
theorem ScanningFrom.mono (scanning : ScanningFrom stream states n) (later : n ≤ m) : ScanningFrom stream states m where
  steps := scanning.steps
  environment := scanning.environment
  running := (scanning.run_thresh later).1
  noReset k after := scanning.noReset k (later.trans after)

theorem ScanningFrom.scan_or_between (scanning : ScanningFrom stream states n) :
    (∃ count, Spells stream n (.scan count)) ∨ BetweenScans (states n) (states (n + 1)) := by
  obtain ⟨i, spelled⟩ := scanning.steps.spells n
  by_cases scan : ∃ count, i = .scan count
  · obtain ⟨count, rfl⟩ := scan
    exact .inl ⟨count, spelled⟩
  · have notReset : i ≠ .reset := fun e => scanning.noReset n le_rfl (e ▸ spelled)
    have between := betweenScans_exec (scanning.steps.exec_word spelled) notReset fun count e => scan ⟨count, e⟩
    exact .inr between

/-- R234: a SCAN comes. Without one, a boundary would leave the phase READY for good and the next TICK would stay pending, so that
SCAN, enabled for good, would be taken. -/
theorem ScanningFrom.scan_comes (scanning : ScanningFrom stream states n) : ∃ m count, n ≤ m ∧ Spells stream m (.scan count) := by
  by_contra! never
  have between : ∀ m, n ≤ m → BetweenScans (states m) (states (m + 1)) := fun m later =>
    (scanning.mono later).scan_or_between.resolve_left fun ⟨count, scan⟩ => never m count later scan
  obtain ⟨p, afterStart, boundary⟩ := scanning.environment.pwmRuns n
  have ready : ∀ m, p + 1 ≤ m → (states m).phase = .ready := by
    refine Nat.le_induction (scanning.steps.ready_after_boundary boundary) fun m later ready => ?_
    obtain ⟨phase, -⟩ := (between m (by omega)).kept_of_ready ready
    exact phase.trans ready
  have run : ∀ m, p + 1 ≤ m → (states m).run = true := fun m later => (scanning.mono (by omega)).running
  obtain ⟨q, afterBoundary, tick⟩ := scanning.environment.ticks (p + 1) run
  have pend : ∀ m, q + 1 ≤ m → (states m).tickPend = true := by
    refine Nat.le_induction (scanning.steps.tickPend_after_tick (run q afterBoundary) tick) fun m later pend => ?_
    obtain ⟨-, -, -, -, -, -, stillPends⟩ := (between m (by omega)).kept_of_ready (ready m (by omega))
    exact stillPends pend
  have enabled : ∀ m, q + 1 ≤ m → (states m).scanEnabled = true := fun m later =>
    (scanEnabled_iff _).mpr ⟨run m (by omega), ready m (by omega), pend m later⟩
  obtain ⟨m, count, later, scan⟩ := scanning.environment.scanFair (q + 1) enabled
  exact never m count (by omega) scan

/-- What the words between two SCANs keep, holds at some SCAN to come: at the next one. -/
theorem ScanningFrom.until_scan {P : State → Prop} (scanning : ScanningFrom stream states n) (start : P (states n))
    (keeps : ∀ s t, P s → BetweenScans s t → P t) : ∃ m count, n ≤ m ∧ Spells stream m (.scan count) ∧ P (states m) := by
  by_contra! never
  have always : ∀ m, n ≤ m → P (states m) := by
    refine Nat.le_induction start fun m later holds => ?_
    obtain ⟨count, scan⟩ | between := (scanning.mono later).scan_or_between
    · exact absurd holds (never m count later scan)
    · exact keeps _ _ holds between
  obtain ⟨m, count, later, scan⟩ := scanning.scan_comes
  exact never m count later scan (always m later)

end

end Sys2Proof.Safety
end

section
/-! The round robin of an endless run (spec/40_channel_scanner.md R105, spec/60_exceptions.md R234): the SCAN after one of a channel is
one of the next channel, whether or not a start sequence comes between. -/

namespace Sys2Proof.Safety

open Sys2Proof Sys2Proof.Machine

/-- Channel `c` was scanned last: its tick has ended, or waits for the boundary that ends it. -/
def ScannedLast (c : Channel) (s : State) : Prop :=
  (s.phase = .ready ∧ s.selch = c + 1) ∨ (s.phase = .wait ∧ s.selch = c)

/-- R100, R171: a SCAN in READY leaves its channel as the one scanned last. -/
theorem scannedLast_scan {count : Half} {s t : State} (ready : s.phase = .ready) (h : ScanCase count s t) :
    ScannedLast s.selch t := by
  obtain ⟨-, -, rfl⟩ | ⟨-, -, rfl⟩ | ⟨-, -, rfl⟩ | ⟨-, -, rfl⟩ := h
  · exact .inr ⟨rfl, rfl⟩
  all_goals exact .inl ⟨ready, rfl⟩

theorem scannedLast_between {c : Channel} {s t : State} (last : ScannedLast c s) (between : BetweenScans s t) :
    ScannedLast c t := by
  obtain ⟨phase, selch, -⟩ | ⟨wait, ready, advanced⟩ := between
  · rw [ScannedLast, phase, selch]
    exact last
  · obtain ⟨notWait, -⟩ | ⟨-, selch⟩ := last
    · simp [wait] at notWait
    · exact .inl ⟨ready, by rw [advanced, selch]⟩

/-- R105: after a SCAN of one channel comes a SCAN of the next. -/
theorem ScanningFrom.next_channel {stream : Nat → StimWord} {states : Nat → State} {n : Nat} {count : Half}
    (scanning : ScanningFrom stream states n) (scan : Spells stream n (.scan count)) :
    ∃ m count', n ≤ m ∧ Spells stream m (.scan count') ∧ (states m).selch = (states n).selch + 1 := by
  obtain ⟨ready, scanned⟩ := scanning.steps.scan_inv scan
  have served : ScannedLast (states n).selch (states (n + 1)) :=
    scannedLast_scan (s := { states n with stimuli := [] }) ready scanned
  obtain ⟨m, count', later, scan', last⟩ :=
    (scanning.mono (Nat.le_succ n)).until_scan served fun _ _ => scannedLast_between
  obtain ⟨ready', -⟩ := scanning.steps.scan_inv scan'
  obtain ⟨-, selch⟩ | ⟨wait, -⟩ := last
  · exact ⟨m, count', by omega, scan', selch⟩
  · simp [ready'] at wait

/-- The seven channels are one cycle: what passes from each channel to the next passes to all. -/
theorem channel_cycle {P : Channel → Prop} {first : Channel} (start : P first) (next : ∀ c, P c → P (c + 1)) (c : Channel) :
    P c := by
  have reach : ∀ k c, c.val = (first.val + k) % 7 → P c := by
    intro k
    induction k with
    | zero =>
      intro c same
      obtain rfl : c = first := Fin.ext (same.trans (Nat.mod_eq_of_lt first.isLt))
      exact start
    | succ k ih =>
      intro c same
      have before := next ⟨(first.val + k) % 7, Nat.mod_lt _ (Nat.succ_pos 6)⟩ (ih _ rfl)
      obtain rfl : c = ⟨(first.val + k) % 7, Nat.mod_lt _ (Nat.succ_pos 6)⟩ + 1 := by
        rw [channel_succ_eq]
        exact Fin.ext (by simp only [same]; omega)
      exact before
  have bounds : first.val < 7 ∧ c.val < 7 := ⟨first.isLt, c.isLt⟩
  exact reach (7 + c.val - first.val) c (by omega)

/-- Settles O54: some channel is scanned (R234), and with each channel the next one is, so all seven are. -/
theorem everyChannelIsScannedAgain : Obligations.EveryChannelIsScannedAgain := by
  unfold Obligations.EveryChannelIsScannedAgain
  intro stream states n scanning
  obtain ⟨first, count, later, scan⟩ := scanning.scan_comes
  refine channel_cycle ⟨first, count, later, scan, rfl⟩ ?_
  rintro c ⟨m, count, later, scan, rfl⟩
  obtain ⟨m', count', later', scan', following⟩ := (scanning.mono later).next_channel scan
  exact ⟨m', count', later.trans later', scan', following⟩

end Sys2Proof.Safety
end

section
/-! A released tone in an endless run (spec/60_exceptions.md R234, spec/41_note_state_machine.md R130): once no count is a touch,
IDLECNT counts the SCANs up to 12 (from above 12 it wraps first), the next SCAN stops the tone, and no later one starts
another. -/

namespace Sys2Proof.Safety

open Sys2Proof Sys2Proof.Machine

/-- From word `n` on, no SCAN is a touch. -/
def NoTouchFrom (stream : Nat → StimWord) (states : Nat → State) (n : Nat) : Prop :=
  ∀ m count, n ≤ m → Spells stream m (.scan count) → (states n).thresh.toNat ≤ count.toNat

/-- Nothing sounds, and no start sequence is under way. -/
def Silent (s : State) : Prop :=
  s.phase = .ready ∧ s.sndch = none ∧ s.pwmEn = false ∧ s.indicator = false

/-- The machine is READY with IDLECNT = `v`. -/
def ReadyAt (v : Byte) (s : State) : Prop := s.phase = .ready ∧ s.idleCnt = v

theorem readyAt_between {v : Byte} {s t : State} (counting : ReadyAt v s) (between : BetweenScans s t) : ReadyAt v t := by
  obtain ⟨ready, counted⟩ := counting
  obtain ⟨phase, -, idleCnt, -⟩ := between.kept_of_ready ready
  exact ⟨phase.trans ready, idleCnt.trans counted⟩

theorem silent_between {s t : State} (silent : Silent s) (between : BetweenScans s t) : Silent t := by
  obtain ⟨ready, none, off, dark⟩ := silent
  obtain ⟨phase, -, -, sndch, pwmEn, indicator, -⟩ := between.kept_of_ready ready
  exact ⟨phase.trans ready, sndch.trans none, pwmEn.trans off, indicator.trans dark⟩

/-- R121: a SCAN without a touch counts, or (the count being the last) silences the machine. -/
theorem counts_or_silent_scan {count : Half} {s t : State} (h : ScanCase count s t) (ready : s.phase = .ready)
    (noTouch : s.thresh.toNat ≤ count.toNat) : (s.idleCnt ≠ 12#8 ∧ ReadyAt (s.idleCnt + 1#8) t) ∨ Silent t := by
  have idle : ¬ count < s.thresh := Nat.not_lt.mpr noTouch
  obtain ⟨touch, -⟩ | ⟨touch, -⟩ | ⟨-, more, rfl⟩ | ⟨-, -, rfl⟩ := h
  · exact absurd touch idle
  · exact absurd touch idle
  · exact .inl ⟨more, ready, rfl⟩
  · exact .inr ⟨ready, rfl, rfl, rfl⟩

/-- R127: a SCAN without a touch leaves a silent machine silent. -/
theorem silent_scan {count : Half} {s t : State} (h : ScanCase count s t) (silent : Silent s)
    (noTouch : s.thresh.toNat ≤ count.toNat) : Silent t := by
  have idle : ¬ count < s.thresh := Nat.not_lt.mpr noTouch
  obtain ⟨touch, -⟩ | ⟨touch, -⟩ | ⟨-, -, rfl⟩ | ⟨-, -, rfl⟩ := h
  · exact absurd touch idle
  · exact absurd touch idle
  · exact silent
  · exact ⟨silent.1, rfl, rfl, rfl⟩

section
variable {stream : Nat → StimWord} {states : Nat → State} {n m : Nat}

theorem NoTouchFrom.mono (noTouch : NoTouchFrom stream states n) (scanning : ScanningFrom stream states n) (later : n ≤ m) :
    NoTouchFrom stream states m := by
  intro k count after scan
  rw [(scanning.run_thresh later).2]
  exact noTouch k count (later.trans after) scan

/-- Once the machine is silent, it stays so. -/
theorem ScanningFrom.silent_forever (scanning : ScanningFrom stream states n) (noTouch : NoTouchFrom stream states n)
    (silent : Silent (states n)) (later : n ≤ m) : Silent (states m) := by
  induction m, later using Nat.le_induction with
  | base => exact silent
  | succ m later ih =>
    obtain ⟨count, scan⟩ | between := (scanning.mono later).scan_or_between
    · obtain ⟨-, scanned⟩ := scanning.steps.scan_inv scan
      exact silent_scan scanned ih (noTouch.mono scanning later m count le_rfl scan)
    · exact silent_between ih between

/-- R126: in READY the next SCAN counts, or silences the machine. -/
theorem ScanningFrom.next_count {v : Byte} (scanning : ScanningFrom stream states n) (noTouch : NoTouchFrom stream states n)
    (ready : ReadyAt v (states n)) :
    ∃ m, n ≤ m ∧ ((v ≠ 12#8 ∧ ReadyAt (v + 1#8) (states m)) ∨ Silent (states m)) := by
  obtain ⟨m, count, later, scan, stillReady, rfl⟩ := scanning.until_scan ready fun _ _ => readyAt_between
  obtain ⟨-, scanned⟩ := scanning.steps.scan_inv scan
  have outcome := counts_or_silent_scan scanned stillReady (noTouch.mono scanning later m count le_rfl scan)
  exact ⟨m + 1, by omega, outcome⟩

/-- From READY the machine becomes silent, by induction on how many counts IDLECNT is away from 12, modulo 256. -/
theorem ScanningFrom.becomes_silent {left : Nat} {v : Byte} (scanning : ScanningFrom stream states n)
    (noTouch : NoTouchFrom stream states n) (ready : ReadyAt v (states n)) (away : (12#8 - v).toNat = left) :
    ∃ m, n ≤ m ∧ Silent (states m) := by
  induction left generalizing n v with
  | zero =>
    obtain ⟨m, later, ⟨more, -⟩ | silent⟩ := scanning.next_count noTouch ready
    · exact absurd (by bv_omega : v = 12#8) more
    · exact ⟨m, later, silent⟩
  | succ left ih =>
    obtain ⟨m, later, ⟨-, counted⟩ | silent⟩ := scanning.next_count noTouch ready
    · obtain ⟨m', later', silent⟩ := ih (scanning.mono later) (noTouch.mono scanning later) counted (by bv_omega)
      exact ⟨m', later.trans later', silent⟩
    · exact ⟨m, later, silent⟩

end

/-- Settles O55: a boundary leaves the machine READY, it then becomes silent, and stays so. -/
theorem releasedToneStops : Obligations.ReleasedToneStops := by
  unfold Obligations.ReleasedToneStops
  intro stream states n scanning noTouch
  have released : NoTouchFrom stream states n := noTouch
  obtain ⟨p, afterStart, boundary⟩ := scanning.environment.pwmRuns n
  have begun : n ≤ p + 1 := by omega
  have ready : ReadyAt (states (p + 1)).idleCnt (states (p + 1)) := ⟨scanning.steps.ready_after_boundary boundary, rfl⟩
  obtain ⟨m, later, silent⟩ := (scanning.mono begun).becomes_silent (released.mono scanning begun) ready rfl
  have stopped : n ≤ m := begun.trans later
  refine ⟨m, stopped, fun k after => ?_⟩
  obtain ⟨-, outputs⟩ := (scanning.mono stopped).silent_forever (released.mono scanning stopped) silent after
  exact outputs

end Sys2Proof.Safety
end

section
/-! Hazards (spec/70_reset_and_hazards.md R250, R254, R265): the state RESET leaves, a threshold that no count is below, and what the
host and a TICK can write. -/

namespace Sys2Proof.Safety

open Sys2Proof Sys2Proof.Machine

/-- R101, R121: a SCAN without a touch starts no note, leaves WAIT alone, and enables nothing. -/
theorem noNote_scan {count : Half} {s t : State} (h : ScanCase count s t) (noTouch : s.thresh.toNat ≤ count.toNat)
    (noNote : s.sndch = none) : t.phase = s.phase ∧ t.sndch = none ∧ (s.pwmEn = false → t.pwmEn = false) := by
  have idle : ¬ count < s.thresh := Nat.not_lt.mpr noTouch
  obtain ⟨touch, -⟩ | ⟨touch, -⟩ | ⟨-, -, rfl⟩ | ⟨-, -, rfl⟩ := h
  · exact absurd touch idle
  · exact absurd touch idle
  · exact ⟨rfl, noNote, id⟩
  · exact ⟨rfl, rfl, fun _ => rfl⟩

/-- Settles O19: no count is below 0, so a SCAN is one without a touch; in READY nothing else reaches the sequencer. -/
theorem zeroThresholdNeverSounds : Obligations.ZeroThresholdNeverSounds := by
  unfold Obligations.ZeroThresholdNeverSounds
  intro s t i run zero noNote ready h notReset
  obtain ⟨runs, same⟩ := runAndThresholdFixedUntilReset i s t run h notReset
  have note : t.phase = s.phase ∧ t.sndch = none ∧ (s.pwmEn = false → t.pwmEn = false) := by
    by_cases scan : ∃ count, i = .scan count
    · obtain ⟨count, rfl⟩ := scan
      obtain ⟨-, scanned⟩ := exec_inv h
      exact noNote_scan scanned (by simp [zero]) noNote
    · have between := betweenScans_exec h notReset fun count e => scan ⟨count, e⟩
      obtain ⟨phase, -, -, sndch, pwmEn, -⟩ := between.kept_of_ready ready
      exact ⟨phase, sndch.trans noNote, pwmEn.trans⟩
  obtain ⟨phase, sndch, off⟩ := note
  exact ⟨runs, same.trans zero, sndch, phase.trans ready, off⟩

/-- Settles O36: a TICK writes TICKPEND or TICKLOST, a host write its own register or RUN, and RD the record of reads. -/
theorem onlyTheSequencerWritesScanState : Obligations.OnlyTheSequencerWritesScanState := by
  unfold Obligations.OnlyTheSequencerWritesScanState
  intro i s t h notReset notBoundary notScan
  have answer := exec_inv h
  cases i with
  | reset => exact absurd rfl notReset
  | pwmb => exact absurd rfl notBoundary
  | scan count => exact absurd rfl (notScan count)
  | tick => obtain ⟨-, rfl⟩ | ⟨-, -, rfl⟩ | ⟨-, -, rfl⟩ := answer <;> rfl
  | wrCtrl byte => obtain ⟨-, rfl⟩ | ⟨-, rfl⟩ := answer <;> rfl
  | wrStatus | wrRos | wrThrl | wrThrh | wrBasel | wrBaseh | wrRop | wrRsv | rd =>
    subst answer
    rfl

/-- Settles O12: RESET answers the reset registers beside the fields it leaves alone, and so the table. -/
theorem stateAfterReset : Obligations.StateAfterReset := by
  unfold Obligations.StateAfterReset
  exact ⟨fun s => ⟨_, resetResult s, afterReset_of_registers .., rfl⟩, afterReset_of_registers ..⟩

end Sys2Proof.Safety
end

section
/-! Sample words (spec/95_test_vectors.md L2-E, P1, P2): each is the encoding of the stimulus it stands for. -/

namespace Sys2Proof

theorem decode_of_encode_eq {w : StimWord} {i : Instr} (word : encode i = w) (wf : WellFormed i = true) : decode w = .ok i :=
  word ▸ decodeOfEncode i wf

/-- Settles O6: each word is the encoding of a well-formed stimulus, and so decodes to it (R84). -/
theorem sampleWordsDecode : Obligations.SampleWordsDecode := by
  unfold Obligations.SampleWordsDecode
  have scanWord : encode (.scan 65535#16) = 0x2000FFFF#32 := rfl
  have ctrlWord : encode (.wrCtrl 0x03#8) = 0x40000003#32 := rfl
  have ropWord : encode (.wrRop 0xB#4 0x12#8) = 0x4B000012#32 := rfl
  have readWord : encode (.rd 0x2#4) = 0x52000000#32 := rfl
  exact ⟨decode_of_encode_eq rfl rfl, decode_of_encode_eq rfl rfl, decode_of_encode_eq scanWord rfl,
    decode_of_encode_eq rfl rfl, decode_of_encode_eq ctrlWord rfl, decode_of_encode_eq ropWord rfl,
    decode_of_encode_eq readWord rfl⟩

end Sys2Proof
end
